-- ==== Sys2Proof/Word.lean ====
section
/-! DEFINITION. The word types of EMHT: bytes, 16-bit halves and 32-bit words (spec R10: all values are unsigned, bit 0 is
the least significant). Only the types stand here; the arithmetic over them is in Decode.lean and Machine/. -/

namespace Sys2Proof

/-- A byte (R10). -/
abbrev Byte := BitVec 8

/-- A 16-bit field of a frame: `magic16`, `cmd16`, `command16`, `slot16` (R54). -/
abbrev Half := BitVec 16

/-- A 32-bit value: an end-marker, the checksum register, a page checksum (R54, R30). -/
abbrev Word := BitVec 32

/-- A plane number, 0 or 1 (R23). -/
abbrev Plane := BitVec 1

/-- A slot number, 0 to 15 (R27). -/
abbrev Slot := BitVec 4

/-- A page number as the page register holds it: 0 (none) or 1 to 61 (R24). -/
abbrev Page := BitVec 6

/-- A sub-frame number as the register holds it: 0 (none) or 1 to 5 (R25). -/
abbrev Sub := BitVec 3

end Sys2Proof
end

