-- ==== Sys2Proof/Config.lean ====
section
/-! DEFINITION. The fixed parameters of R5, the one open parameter that changes behaviour (`LEN_END_REPLY`, R6, R87), and
the free values: constants without a body, which stand for what the spec calls unspecified (R30, R33). -/

namespace Sys2Proof.Config

/-- `WIDTH`: pixels per row (R5). -/
abbrev width : Nat := 400
/-- `HEIGHT`: rows (R5). -/
abbrev height : Nat := 300
/-- `PLANES` (R5). -/
abbrev planes : Nat := 2
/-- `PLANE_BYTES`: bytes in one plane, `(WIDTH*HEIGHT)/8` = 15000 at one bit a pixel (R5, R51). -/
abbrev planeBytes : Nat := (width * height) / 8
/-- `PAGES_PER_COLOR` (R5). -/
abbrev pagesPerColor : Nat := 61
/-- `DATA_PER_PAGE`: size of the page buffer, and meaningful bytes of pages 1 to 60 (R5). -/
abbrev dataPerPage : Nat := 248
/-- `LAST_PAGE_DATA_SIZE`: meaningful bytes of page 61 (R5). -/
abbrev lastPageDataSize : Nat := 120
/-- `FRAME_DATA_SIZE`: payload bytes of sub-frames 1 to 4 (R5). -/
abbrev frameDataSize : Nat := 54
/-- `LAST_DATA_SIZE`: data bytes of sub-frame 5 (R5). -/
abbrev lastDataSize : Nat := 32
/-- The bytes of the payload region of a DATA frame that reach the wire, offsets 8 to 59 (R84). -/
abbrev wirePayload : Nat := 52
/-- `LEN_START`, and `LEN_END` (R5). -/
abbrev lenHost10 : Nat := 10
/-- `LEN_DATA` (R5). -/
abbrev lenData : Nat := 64
/-- `LEN_START_REPLY` (R5). -/
abbrev lenStartReply : Nat := 10
/-- `LEN_DATA_REPLY` (R5). -/
abbrev lenDataReply : Nat := 6
/-- `MAX_ATTEMPTS`: attempts per step (R5, R212). -/
abbrev maxAttempts : BitVec 2 := 3

/-- `HOST_MAGIC` (R5). -/
abbrev hostMagic : Half := 0xA5A5
/-- `DEV_MAGIC` (R5). -/
abbrev devMagic : Half := 0x5A5A
/-- `HOST_END` (R5). -/
abbrev hostEnd : Word := 0xA5A5AFAF
/-- `DEV_END` (R5). -/
abbrev devEnd : Word := 0x5A5A5F5F
/-- `CMD_START`, zero-extended to the 16-bit command field (R5, R90). -/
abbrev cmdStart : Half := 0x00C0
/-- `CMD_DATA`, zero-extended (R5, R90). -/
abbrev cmdData : Half := 0x00D0
/-- `CMD_END`, zero-extended (R5, R90). -/
abbrev cmdEnd : Half := 0x00C1
/-- `TAG_PRIMARY`, the tag of plane 0 (R5, R89). -/
abbrev tagPrimary : Byte := 0x00
/-- `TAG_ACCENT`, the tag of plane 1 (R5, R89). -/
abbrev tagAccent : Byte := 0x10

/-- `CRC_POLY`, the reflected polynomial (R5, R122). -/
abbrev crcPoly : Word := 0xEDB88320
/-- `CRC_INIT`, the initial register (R5, R121). -/
abbrev crcInitial : Word := 0xFFFFFFFF

/-- `LEN_END_REPLY`, the length of the END_REPLY: 8 as the source states it, or 10, "the only other value a model may take"
(R87, D38). A configuration argument; State holds it and no step writes it (log 13). -/
inductive EndLen where
  | eight
  | ten
  deriving DecidableEq, Repr

/-- The number of bytes `LEN_END_REPLY` stands for. -/
def EndLen.bytes : EndLen → Nat
  | .eight => 8
  | .ten => 10

/-- FREE VALUE (log 7): the 32-bit value the `n`-th use of an unspecified `crc_reg` yields (R30: "a model treats as
`any value`"). No body, so nothing can be proved about it. -/
opaque freeWord : Nat → Word

/-- FREE VALUE (log 8): the byte at offset `i` of `rx_buf` that the `n`-th receive leaves unspecified (R33: "bytes of
`rx_buf` at or beyond `rx_len` are unspecified"). -/
opaque freeByte : Nat → Nat → Byte

end Sys2Proof.Config
end

