-- ==== Sys2Proof/Syntax.lean ====
section
/-! DEFINITION. The operations and wire frames of EMHT: one constructor per row of spec/opcode_table.json (30 rows). -/

namespace Sys2Proof

/-- The three step bodies that RETRY runs (R212: "`body`, one of the three step bodies"). -/
inductive Body where
  | start   -- STEP.START, R213
  | page    -- STEP.PAGE, R214
  | finish  -- STEP.END, R215
  deriving DecidableEq, Repr

/-- The operations. An operand named by the table as "state" is read from the state and is no argument. -/
inductive Instr where
  /-- START, the 10-byte start frame of a plane and slot (R82). -/
  | start (plane : Plane) (slot : Slot)
  /-- DATA, the 64-byte data sub-frame; `payload` is the 52 bytes at offsets 8 to 59 (R84, R85). -/
  | data (plane : Plane) (slot : Slot) (page : Page) (sub : Sub) (payload : List Byte)
  /-- END, the 10-byte end frame (R83). -/
  | endFrame (slot : Slot)
  /-- START_REPLY: command16, status8, reserved8 (R86). -/
  | startReply (c : Half) (st r : Byte)
  /-- DATA_REPLY: command16, page8, status8 (R86). -/
  | dataReply (c : Half) (p st : Byte)
  /-- END_REPLY: command16, slot16 (R87). -/
  | endReply (c sl : Half)
  /-- SEND, the host command with its 8-bit operand (R98, R210). -/
  | send (operand : Byte)
  /-- RESET, the pin (R290). -/
  | reset
  /-- CRC.INIT (R121). -/
  | crcInit
  /-- CRC.BYTE(d) (R122). -/
  | crcByte (d : Byte)
  /-- CRC.FIN (R123). -/
  | crcFin
  /-- CRC.SPAN(b), the source's `checksum(b)` (R124). -/
  | crcSpan (b : List Byte)
  /-- ENC.START (R141). -/
  | encStart
  /-- ENC.DATA(P) (R142). -/
  | encData (p : List Byte)
  /-- ENC.END (R143). -/
  | encEnd
  /-- REF.SREPLY(c, st, r), test bench (R144). -/
  | refSreply (c : Half) (st r : Byte)
  /-- REF.DREPLY(c, p, st), test bench (R145). -/
  | refDreply (c : Half) (p st : Byte)
  /-- REF.EREPLY(c, sl), test bench (R146). -/
  | refEreply (c sl : Half)
  /-- DEC.SREPLY(b) (R161). -/
  | decSreply (b : List Byte)
  /-- DEC.DREPLY(b) (R162). -/
  | decDreply (b : List Byte)
  /-- DEC.EREPLY(b) (R163). -/
  | decEreply (b : List Byte)
  /-- CLS.START(st) (R164). -/
  | clsStart (st : Byte)
  /-- CLS.DATA(st) (R165). -/
  | clsData (st : Byte)
  /-- SEG.PAGE(q, p) (R191). -/
  | segPage (q : Plane) (p : Page)
  /-- SEG.SUB(k) (R192). -/
  | segSub (k : Sub)
  /-- RETRY(body) (R212). -/
  | retry (body : Body)
  /-- STEP.START (R213). -/
  | stepStart
  /-- STEP.PAGE (R214). -/
  | stepPage
  /-- STEP.END (R215). -/
  | stepEnd
  /-- RUN (R216). -/
  | run
  deriving DecidableEq, Repr

end Sys2Proof
end

