-- ==== Sys2Proof/WellFormed.lean ====
section
/-! DEFINITION. Which terms of Instr the spec gives: the ranges of the operands that the types alone do not give. -/

namespace Sys2Proof

/-- A page number the block sends: 1 to 61 (R91, R191). -/
def pageOk (p : Page) : Bool := 1 ≤ p.toNat && p.toNat ≤ Config.pagesPerColor

/-- A sub-frame number: 1 to 5 (R91, R192). -/
def subOk (k : Sub) : Bool := 1 ≤ k.toNat && k.toNat ≤ 5

/-- The payload region of a DATA frame: 52 bytes, and in sub-frame 5 the bytes at offsets 44 to 59 of the frame (36 to 51 of
the region) are pad, 0x00 (R84). -/
def regionOk (k : Sub) (r : List Byte) : Bool :=
  r.length == Config.wirePayload && (k.toNat != 5 || (r.drop 36).all (· == 0))

/-- Well-formed operations and frames. -/
def Instr.wf : Instr → Bool
  | .data _ _ page sub payload => pageOk page && subOk sub && regionOk sub payload
  | .encData p => p.length == Config.frameDataSize || p.length == Config.lastDataSize + 4
  | .segPage _ p => pageOk p
  | .segSub k => subOk k
  | .start _ _ | .endFrame _ | .startReply _ _ _ | .dataReply _ _ _ | .endReply _ _ | .send _ | .reset
  | .crcInit | .crcByte _ | .crcFin | .crcSpan _ | .encStart | .encEnd
  | .refSreply _ _ _ | .refDreply _ _ _ | .refEreply _ _ | .decSreply _ | .decDreply _ | .decEreply _
  | .clsStart _ | .clsData _ | .retry _ | .stepStart | .stepPage | .stepEnd | .run => true

end Sys2Proof
end

