-- ==== Sys2Proof/Decode.lean ====
section
/-! DEFINITION. The wire layouts (R82 to R87), the decoder from bytes to operations, total and rejecting by name, and after it
the encoder, from the same layouts. The 22 internal operations and the RESET pin have no bit pattern (INDEX.md). -/

namespace Sys2Proof

/-! ## Byte packing (R12) -/

/-- `le16(v)`: least significant byte first (R12). -/
def le16 (v : Half) : List Byte := [v.extractLsb' 0 8, v.extractLsb' 8 8]

/-- `le32(v)` (R12). -/
def le32 (v : Word) : List Byte := [v.extractLsb' 0 8, v.extractLsb' 8 8, v.extractLsb' 16 8, v.extractLsb' 24 8]

/-- Byte `i` of a sequence; every use is below the length, the default is never seen there. -/
def byteAt (b : List Byte) (i : Nat) : Byte := b.getD i 0

/-- `u16le(b, o)` (R12). -/
def u16le (b : List Byte) (o : Nat) : Half :=
  (byteAt b o).setWidth 16 ||| ((byteAt b (o + 1)).setWidth 16 <<< 8)

/-- `u32le(b, o)` (R12). -/
def u32le (b : List Byte) (o : Nat) : Word :=
  (byteAt b o).setWidth 32 ||| ((byteAt b (o + 1)).setWidth 32 <<< 8) ||| ((byteAt b (o + 2)).setWidth 32 <<< 16)
    ||| ((byteAt b (o + 3)).setWidth 32 <<< 24)

/-- `zeros(n)` (R10). -/
def zeros (n : Nat) : List Byte := List.replicate n 0

/-- The first `n` bytes of a sequence, padded with 0x00 to `n`. -/
def fit (n : Nat) (b : List Byte) : List Byte := (b ++ zeros n).take n

/-! ## Field assembly (R88 to R90) -/

/-- `slot = operand & 0xF` (R88). -/
def slotOf (operand : Byte) : Slot := operand.extractLsb' 0 4

/-- `tag(plane)`: 0x00 for plane 0, 0x10 for plane 1 (R89). -/
def tagOf (q : Plane) : Byte := if q = 1 then Config.tagAccent else Config.tagPrimary

/-- `colorslot8 = tag(plane) | slot` (R89). -/
def colorSlot (q : Plane) (s : Slot) : Byte := tagOf q ||| s.setWidth 8

/-! ## The six layouts -/

/-- START frame (R82). -/
def startFrame (q : Plane) (s : Slot) : List Byte :=
  le16 Config.hostMagic ++ le16 (Config.cmdStart ||| s.setWidth 16) ++ [colorSlot q s, 0x00] ++ le32 Config.hostEnd

/-- END frame (R83). -/
def endFrameBytes (s : Slot) : List Byte :=
  le16 Config.hostMagic ++ le16 (Config.cmdEnd ||| s.setWidth 16) ++ [s.setWidth 8, 0x00] ++ le32 Config.hostEnd

/-- DATA frame for a payload of any length: the bytes of R85, `(P ++ zeros(56 - len(P)))[0..51]` between header and marker. -/
def dataFrame (q : Plane) (s : Slot) (p : Page) (k : Sub) (payload : List Byte) : List Byte :=
  le16 Config.hostMagic ++ le16 Config.cmdData ++ [colorSlot q s, p.setWidth 8, k.setWidth 8, 0x00]
    ++ fit Config.wirePayload payload ++ le32 Config.hostEnd

/-- START_REPLY frame (R86, R144). -/
def startReplyFrame (c : Half) (st r : Byte) : List Byte :=
  le16 Config.devMagic ++ le16 c ++ [st, r] ++ le32 Config.devEnd

/-- DATA_REPLY frame, no end-marker (R86, R145). -/
def dataReplyFrame (c : Half) (p st : Byte) : List Byte := le16 Config.devMagic ++ le16 c ++ [p, st]

/-- END_REPLY frame: the fields cut to `LEN_END_REPLY` bytes, the marker written last over the final 4 (R87, R146). -/
def endReplyFrame (n : Config.EndLen) (c sl : Half) : List Byte :=
  ((le16 Config.devMagic ++ le16 c ++ le16 sl ++ zeros 4).take n.bytes).take (n.bytes - 4) ++ le32 Config.devEnd

/-! ## The decoder -/

/-- Why a word is no row of the table. -/
inductive Reject where
  /-- No row has this many bytes. -/
  | length
  /-- Bytes 0 and 1 are neither magic (or not the magic of the only rows of this length). -/
  | magic
  /-- The end-marker is not the row's. -/
  | endMarker
  /-- The command field is no command of the rows of this length and magic. -/
  | command
  /-- A bit the row fixes (a pad byte, bits above the tag, a slot nibble repeated otherwise) has another value. -/
  | fixedBits
  deriving DecidableEq, Repr

/-- What the decoder answers. -/
inductive Decoded where
  | ok (i : Instr)
  | reject (r : Reject)
  deriving DecidableEq, Repr

/-- What tells a frame's kind beside its bytes: the configured END_REPLY length, and whether the protocol stands at the end
step (R80, R97: "the frame kind from the bytes must use the protocol position"; log 12). -/
structure Ctx where
  endLen : Config.EndLen
  ending : Bool
  deriving DecidableEq, Repr

/-- The context of reset: the default length 8, no end step running (log 12). -/
def Ctx.default : Ctx := ⟨.eight, false⟩

/-- The 10-byte host frames, START and END. For odd slots START of plane 0 and END are the same bytes: the position
decides (R97, R101). -/
def decodeHost10 (c : Ctx) (b : List Byte) : Decoded :=
  let s : Slot := (byteAt b 4).extractLsb' 0 4
  let q : Plane := (byteAt b 4).extractLsb' 4 1
  if u32le b 6 ≠ Config.hostEnd then .reject .endMarker
  else if byteAt b 5 ≠ 0 ∨ byteAt b 3 ≠ 0 then .reject .fixedBits
  else if b = endFrameBytes s ∧ (c.ending ∨ b ≠ startFrame q s) then .ok (.endFrame s)
  else if b = startFrame q s then .ok (.start q s)
  else if (byteAt b 2).extractLsb' 4 4 ≠ (0xC : BitVec 4) then .reject .command
  else .reject .fixedBits

/-- The 64-byte frame, DATA, by the row's match and mask: byte 4 below 0x20, byte 5 below 0x40, byte 6 below 0x08; the exact
ranges of page and sub-frame number are `Instr.wf`'s (log 16). -/
def decodeData (b : List Byte) : Decoded :=
  if u16le b 0 ≠ Config.hostMagic then .reject .magic
  else if u16le b 2 ≠ Config.cmdData then .reject .command
  else if u32le b 60 ≠ Config.hostEnd then .reject .endMarker
  else if byteAt b 7 ≠ 0 ∨ byteAt b 4 &&& 0xE0 ≠ 0 ∨ byteAt b 5 &&& 0xC0 ≠ 0 ∨ byteAt b 6 &&& 0xF8 ≠ 0 then .reject .fixedBits
  else .ok (.data ((byteAt b 4).extractLsb' 4 1) ((byteAt b 4).extractLsb' 0 4) ((byteAt b 5).extractLsb' 0 6)
    ((byteAt b 6).extractLsb' 0 3) ((b.drop 8).take Config.wirePayload))

/-- A START_REPLY (R86). -/
def decodeStartReply (b : List Byte) : Decoded :=
  if u16le b 0 ≠ Config.devMagic then .reject .magic
  else if u32le b 6 ≠ Config.devEnd then .reject .endMarker
  else .ok (.startReply (u16le b 2) (byteAt b 4) (byteAt b 5))

/-- A DATA_REPLY (R86). -/
def decodeDataReply (b : List Byte) : Decoded :=
  if u16le b 0 ≠ Config.devMagic then .reject .magic
  else .ok (.dataReply (u16le b 2) (byteAt b 4) (byteAt b 5))

/-- An END_REPLY of the configured length (R87). -/
def decodeEndReply (n : Config.EndLen) (b : List Byte) : Decoded :=
  if u16le b 0 ≠ Config.devMagic then .reject .magic
  else if u32le b (n.bytes - 4) ≠ Config.devEnd then .reject .endMarker
  else .ok (.endReply (u16le b 2) (u16le b 4))

/-- The decoder, total on byte sequences: first the length, then magic, marker and the other fixed bits (R96, R101). One byte
is the operand on the command port (R98). -/
def decode (c : Ctx) (b : List Byte) : Decoded :=
  if b.length = 1 then .ok (.send (byteAt b 0))
  else if b.length = Config.lenDataReply then decodeDataReply b
  else if b.length = 8 then (if c.endLen = .eight then decodeEndReply .eight b else .reject .length)
  else if b.length = Config.lenHost10 then
    (if u16le b 0 = Config.hostMagic then decodeHost10 c b
     else if c.endLen = .ten ∧ c.ending then decodeEndReply .ten b
     else decodeStartReply b)
  else if b.length = Config.lenData then decodeData b
  else .reject .length

/-- The decoded instruction, if there is one. -/
def Decoded.toOption : Decoded → Option Instr
  | .ok i => some i
  | .reject _ => none

/-- The bytes of a word numbered as the table numbers it: byte `k` is bits `8k+7` to `8k` (byte 0, the first on the stream,
is the low byte). -/
def wordBytes (nbits w : Nat) : List Byte :=
  (List.range (nbits / 8)).map fun k => BitVec.ofNat 8 (w >>> (8 * k))

/-- The instruction the decoder reads from a table word, in the context of reset. -/
def decodeTableWord (nbits w : Nat) : Option Instr := (decode Ctx.default (wordBytes nbits w)).toOption

/-! ## The encoder -/

/-- The bytes of a frame or command; `none` for the RESET pin and the internal operations, which have no bit pattern. -/
def encode (c : Ctx) : Instr → Option (List Byte)
  | .start q s => some (startFrame q s)
  | .data q s p k r => some (dataFrame q s p k r)
  | .endFrame s => some (endFrameBytes s)
  | .startReply c st r => some (startReplyFrame c st r)
  | .dataReply c p st => some (dataReplyFrame c p st)
  | .endReply c' sl => some (endReplyFrame c.endLen c' sl)
  | .send o => some [o]
  | .reset | .crcInit | .crcByte _ | .crcFin | .crcSpan _ | .encStart | .encData _ | .encEnd
  | .refSreply _ _ _ | .refDreply _ _ _ | .refEreply _ _ | .decSreply _ | .decDreply _ | .decEreply _
  | .clsStart _ | .clsData _ | .segPage _ _ | .segSub _ | .retry _ | .stepStart | .stepPage | .stepEnd | .run => none

/-- The rows with a bit pattern: the six frames and the command (INDEX.md). -/
def Instr.onWire : Instr → Bool
  | .start _ _ | .data _ _ _ _ _ | .endFrame _ | .startReply _ _ _ | .dataReply _ _ _ | .endReply _ _ | .send _ => true
  | .reset | .crcInit | .crcByte _ | .crcFin | .crcSpan _ | .encStart | .encData _ | .encEnd
  | .refSreply _ _ _ | .refDreply _ _ _ | .refEreply _ _ | .decSreply _ | .decDreply _ | .decEreply _
  | .clsStart _ | .clsData _ | .segPage _ _ | .segSub _ | .retry _ | .stepStart | .stepPage | .stepEnd | .run => false

/-- Whether the protocol position tells this frame apart from another row with the same bytes: an odd slot's START of plane 0
against END (R97), START_REPLY against a 10-byte END_REPLY (R80, R87). -/
def Ctx.tells (c : Ctx) : Instr → Bool
  | .start q s => !c.ending || q == 1 || !s.getLsbD 0
  | .endFrame s => c.ending || !s.getLsbD 0
  | .startReply _ _ _ => c.endLen == .eight || !c.ending
  | .endReply _ _ => c.endLen == .eight || c.ending
  | .data _ _ _ _ _ | .dataReply _ _ _ | .send _ | .reset | .crcInit | .crcByte _ | .crcFin | .crcSpan _
  | .encStart | .encData _ | .encEnd | .refSreply _ _ _ | .refDreply _ _ _ | .refEreply _ _
  | .decSreply _ | .decDreply _ | .decEreply _ | .clsStart _ | .clsData _ | .segPage _ _ | .segSub _
  | .retry _ | .stepStart | .stepPage | .stepEnd | .run => true

/-- What a frame's bytes keep of its fields: all of them, but for `slot16` of an 8-byte END_REPLY, which the marker overwrites
and which then reads 0x5F5F (R87). -/
def Ctx.keeps (c : Ctx) : Instr → Instr
  | .endReply c' sl => .endReply c' (match c.endLen with | .eight => 0x5F5F | .ten => sl)
  | i => i

end Sys2Proof
end

