-- ==== Sys2Proof/Machine/State.lean ====
section
/-! DEFINITION. The state of EMHT as plain data: every register of R20, the image store and the configuration argument (which
no step writes), the environment's answers and the observable trace (R9, R13), and the model's own fields, each marked so. -/

namespace Sys2Proof.Machine

/-! ## Names of values -/

/-- The six sequencer states (R22). -/
inductive Fsm where
  | idle
  | starting
  | sendingPage
  | ending
  | done
  | failed
  deriving DecidableEq, Repr

/-- `fail_step` (R28): NONE, START, PAGE, END. -/
inductive FailStep where
  | none
  | start
  | page
  | finish
  deriving DecidableEq, Repr

/-- The causes of R261, in the order of their codes 0 to 11. -/
inductive Cause where
  | none               -- 0  E_NONE
  | transport          -- 1  E_TRANSPORT
  | length             -- 2  E_LENGTH
  | magic              -- 3  E_MAGIC
  | endMarker          -- 4  E_ENDMARKER
  | startBusy          -- 5  E_START_BUSY
  | startError         -- 6  E_START_ERROR
  | startUnrecognized  -- 7  E_START_UNRECOGNIZED
  | pageCrc            -- 8  E_PAGE_CRC
  | pageMissing        -- 9  E_PAGE_MISSING
  | pageTimeout        -- 10 E_PAGE_TIMEOUT
  | statusUnknown      -- 11 E_STATUS_UNKNOWN
  deriving DecidableEq, Repr

/-- Why a reply does not decode (R14, R160): a length failure, or a validation failure of magic or end-marker. -/
inductive DecodeErr where
  | length
  | magic
  | endMarker
  deriving DecidableEq, Repr

/-- `DecodeResult(T)` (R14). -/
inductive DecodeResult (α : Type) where
  | ok (fields : α)
  | err (e : DecodeErr)
  deriving DecidableEq, Repr

/-- The fields of a START_REPLY (R161). -/
structure StartReplyFields where
  command16 : Half
  status8 : Byte
  reserved8 : Byte
  deriving DecidableEq, Repr

/-- The fields of a DATA_REPLY (R162). -/
structure DataReplyFields where
  command16 : Half
  page8 : Byte
  status8 : Byte
  deriving DecidableEq, Repr

/-- The fields of an END_REPLY (R163). -/
structure EndReplyFields where
  command16 : Half
  slot16 : Half
  deriving DecidableEq, Repr

/-- `StartClass` (R14, R164). -/
inductive StartClass where
  | ok
  | busy
  | error
  | unrecognized (code : Byte)
  deriving DecidableEq, Repr

/-- `DataClass` (R14, R165). -/
inductive DataClass where
  | ok
  | crcFamily (code : Byte)
  | missing (n : BitVec 4)
  | timeout
  | unknown (code : Byte)
  deriving DecidableEq, Repr

/-- `AttemptResult` (R14). -/
inductive AttemptResult where
  | success
  | retry (c : Cause)
  deriving DecidableEq, Repr

/-- `StepResult` (R14). -/
inductive StepResult where
  | ok
  | failed (c : Cause)
  deriving DecidableEq, Repr

/-- `Terminal` (R14): the event that ends a session. -/
inductive Terminal where
  | done
  | failed (step : FailStep) (plane : Plane) (page : Page) (cause : Cause)
  deriving DecidableEq, Repr

/-- The value an operation returns (R13, R14), held in the field `result` (log 10). -/
inductive Result where
  | none
  | word (w : Word)
  | bytes (b : List Byte)
  | startReply (r : DecodeResult StartReplyFields)
  | dataReply (r : DecodeResult DataReplyFields)
  | endReply (r : DecodeResult EndReplyFields)
  | startClass (c : StartClass)
  | dataClass (c : DataClass)
  | attempt (r : AttemptResult)
  | step (r : StepResult)
  | terminal (t : Terminal)
  deriving DecidableEq, Repr

/-! ## The environment as data -/

/-- The transport's answer to `Tx(f)` (R13). -/
inductive TxAnswer where
  | ok
  | err
  deriving DecidableEq, Repr

/-- The transport's answer to `Rx(n)` (R13). -/
inductive RxAnswer where
  | bytes (b : List Byte)
  | err
  deriving DecidableEq, Repr

/-- The events of the observable trace (R9). -/
inductive Event where
  | tx (frame : List Byte) (a : TxAnswer)
  | rx (n : Nat) (a : RxAnswer)
  | waitUnit
  | terminal (t : Terminal)
  deriving DecidableEq, Repr

/-- What the host presents at one step (R98, log 14): the level of the reset pin, and the operand of a SEND, if it issues one. -/
structure Input where
  rst : Bool
  send : Option Byte
  deriving DecidableEq, Repr

/-- A word of the table placed on the model's test bench (log 29), and the protocol position it belongs to (R97): whether the
end step's. No port of the block: nothing of the host, the transport or the device puts a word here. -/
structure BenchWord where
  ending : Bool
  word : List Byte
  deriving DecidableEq, Repr

/-! ## The sequencer's place inside an attempt -/

/-- The phases of an attempt (R222, log 1). `segPage`, `segSub`, `enc` are the parts of PH_BUILD; `rx`, `dec`, `cls` of
PH_RX; `judge`, `ret` of PH_JUDGE. -/
inductive Phase where
  /-- Nothing runs. -/
  | idle
  /-- SEG.PAGE(plane, page) is next (R214). -/
  | segPage
  /-- SEG.SUB(sub) is next (R214). -/
  | segSub
  /-- The step's encoder is next; `payload` is what SEG.SUB returned (R142). -/
  | enc (payload : List Byte)
  /-- `Tx` of the frame in `tx_buf` is next. -/
  | tx
  /-- `Rx` of the step's reply is next. -/
  | rx
  /-- The step's decoder is next. -/
  | dec
  /-- The step's classifier is next, on this status byte. -/
  | cls (st : Byte)
  /-- `WaitUnit` is next (R220). -/
  | backoff
  /-- The attempt ended with this result: RETRY's test is next (R212). -/
  | judge (r : AttemptResult)
  /-- RETRY ended with this result: RUN's continuation is next (R216). -/
  | ret (r : StepResult)
  deriving DecidableEq, Repr

/-- For whom the step body runs: for itself alone, for RETRY, or for RUN. -/
inductive Scope where
  | body
  | retry
  | run
  deriving DecidableEq, Repr

/-! ## Memory -/

/-- The image store IMG as cells in canonical form: keys strictly rising, no cell holding what an unlisted key reads as. The
key of `(plane, addr)` is `plane * 15000 + addr` (log 4). -/
abbrev Memory := List Host.Cell

/-! ## The state -/

/-- The state of the machine. -/
structure State where
  /-- sequencer state (R22) -/
  fsm : Fsm
  /-- current plane (R23) -/
  plane : Plane
  /-- current page, 0 when none (R24) -/
  page : Page
  /-- current sub-frame, 0 outside a page attempt (R25) -/
  sub : Sub
  /-- attempts made in the current step (R26) -/
  attempt : BitVec 2
  /-- target slot (R27) -/
  slot : Slot
  /-- checksum register (R30) -/
  crcReg : Word
  /-- page buffer (R31) -/
  pageBuf : Vector Byte 248
  /-- meaningful bytes of `pageBuf` (R31) -/
  pageLen : BitVec 8
  /-- checksum of the meaningful bytes (R31) -/
  pageCrc : Word
  /-- frame under construction or last frame sent (R32) -/
  txBuf : Vector Byte 64
  /-- valid bytes of `txBuf` (R32) -/
  txLen : BitVec 7
  /-- last reply bytes received (R33) -/
  rxBuf : Vector Byte 10
  /-- valid bytes of `rxBuf` (R33) -/
  rxLen : BitVec 4
  /-- failure report (R28) -/
  failStep : FailStep
  /-- failure report (R28) -/
  failPlane : Plane
  /-- failure report (R28) -/
  failPage : Page
  /-- failure report (R28) -/
  failCause : Cause
  /-- cause of the most recent failed attempt (R34) -/
  lastCause : Cause
  /-- last-reply register (R29) -/
  lastCmd16 : Half
  /-- last-reply register (R29, R35) -/
  lastStatus : Byte
  /-- last-reply register (R29) -/
  lastPage : Byte
  /-- last-reply register (R29) -/
  lastSlot16 : Half
  /-- phase inside the attempt (R222) -/
  phase : Phase
  /-- the step body the phase belongs to (R212) -/
  body : Body
  /-- for whom that body runs -/
  scope : Scope
  /-- configuration argument `LEN_END_REPLY` (R6, R87); no step writes it -/
  endLen : Config.EndLen
  /-- image store (R51); no step writes it -/
  img : Memory
  /-- answers to `Tx` not yet used (R13); environment -/
  txAns : List TxAnswer
  /-- answers to `Rx` not yet used (R13); environment -/
  rxAns : List RxAnswer
  /-- elapsed BUSY units not yet used (R220); environment -/
  ticks : Nat
  /-- what the host presents at the coming steps; environment -/
  inputs : List Input
  /-- a word on the test bench, executed when nothing runs; model's own (log 29) -/
  bench : Option BenchWord
  /-- observable trace, oldest event first (R9); environment -/
  trace : List Event
  /-- value returned by the last operation that returns one (R14); model's own (log 10) -/
  result : Result
  /-- `crcReg` has been made specified by CRC.INIT (R30); model's own (log 7) -/
  crcInit : Bool
  /-- free values drawn so far; model's own (log 7) -/
  free : Nat
  deriving DecidableEq, Repr

/-- Why the machine stops with a fault. Both are safe: the spec's block never does either. -/
inductive Fault where
  /-- SEG.PAGE with a page outside 1..61: it would read an image address that does not exist (R52, U15). Raised by SEG.PAGE and
  by a page attempt that begins with such a `page`. Safe (log 17). -/
  | pageRange (p : Page)
  /-- SEG.SUB with a sub-frame number outside 1..5 (R192). Raised by SEG.SUB. Safe (log 17). -/
  | subRange (k : Sub)
  deriving DecidableEq, Repr

/-- Why a step has no meaning. -/
inductive Refusal where
  /-- An instruction whose arm of exec is not written yet. Raised by exec's refused arms only. Safe. -/
  | notModelled (mnemonic : String)
  /-- The word on the test bench is no command and no frame of the table. Raised by runWord. Safe (log 18). -/
  | undecodable (r : Reject)
  deriving DecidableEq, Repr

/-- The state right after reset (R39), with nothing placed by the environment. `crcReg`, `pageBuf`, `pageLen`, `pageCrc`,
`txBuf`, `txLen`, `rxBuf` are unspecified by the spec: zero, DESIGN CHOICE (log 6). The fields from `phase` on are not
registers of R20 (log 26). -/
def State.reset : State where
  fsm := .idle
  plane := 0
  page := 0
  sub := 0
  attempt := 0
  slot := 0
  crcReg := 0
  pageBuf := Vector.replicate 248 0
  pageLen := 0
  pageCrc := 0
  txBuf := Vector.replicate 64 0
  txLen := 0
  rxBuf := Vector.replicate 10 0
  rxLen := 0
  failStep := .none
  failPlane := 0
  failPage := 0
  failCause := .none
  lastCause := .none
  lastCmd16 := 0
  lastStatus := 0
  lastPage := 0
  lastSlot16 := 0
  phase := .idle
  body := .start
  scope := .run
  endLen := .eight
  img := []
  txAns := []
  rxAns := []
  ticks := 0
  inputs := []
  bench := none
  trace := []
  result := .none
  crcInit := false
  free := 0

end Sys2Proof.Machine
end

