-- ==== Sys2Proof/Machine/Ops.lean ====
section
/-! DEFINITION. The shared operations over memory, registers, the wire and the sequencer's failure. Each is written once; the
meanings call them. Their laws are in Laws/State.lean and Laws/Memory.lean. -/

namespace Sys2Proof.Machine

/-- The outcome of a step of this machine. -/
abbrev Out := Host.Outcome State Fault Refusal

/-- Go on from a next state with a further change; a fault or refusal stays. -/
def onNext (o : Out) (f : State → State) : Out :=
  match o with
  | .next s => .next (f s)
  | .fault r => .fault r
  | .refused r => .refused r

/-! ## The image store (R50 to R53) -/

/-- What an unlisted byte of IMG reads as: 0x00, DESIGN CHOICE (log 4). -/
def Memory.unlisted : Byte := 0

/-- The key of image address `addr` of plane `q` (log 4). -/
def imgKey (q : Plane) (addr : Nat) : Nat := q.toNat * Config.planeBytes + addr

/-- Read one byte. -/
def Memory.read (m : Memory) (k : Nat) : Byte :=
  match m with
  | [] => Memory.unlisted
  | (a, v) :: rest => if a = k then v else Memory.read rest k

/-- Put a cell in front unless it holds what an unlisted key reads as. -/
def Memory.cons (k : Nat) (v : Byte) (m : Memory) : Memory := if v = Memory.unlisted then m else (k, v) :: m

/-- Write one byte, keeping the canonical form. -/
def Memory.write (m : Memory) (k : Nat) (v : Byte) : Memory :=
  match m with
  | [] => Memory.cons k v []
  | (a, w) :: rest =>
    if k < a then Memory.cons k v ((a, w) :: rest)
    else if k = a then Memory.cons k v rest
    else (a, w) :: Memory.write rest k v

/-- Every cell lies above `lo`, below the end of IMG, in rising order, and holds something else than an unlisted byte. -/
def Memory.wfFrom (lo : Nat) : Memory → Bool
  | [] => true
  | (a, v) :: rest => lo ≤ a && a < 2 * Config.planeBytes && v != Memory.unlisted && Memory.wfFrom (a + 1) rest

/-- The canonical form of the image store. -/
def Memory.wf (m : Memory) : Bool := Memory.wfFrom 0 m

/-- `ImgRead(plane, addr)` (R51); the callers stay below 15000. -/
def imgRead (m : Memory) (q : Plane) (addr : Nat) : Byte := Memory.read m (imgKey q addr)

/-- The environment's filling of the image store (R53, R292): no operation of the block. The address must exist (R51) and no
session may run (R66), else nothing is stored. -/
def State.hostWriteImage (s : State) (q : Plane) (addr : Nat) (v : Byte) : State :=
  if addr < Config.planeBytes ∧ s.fsm ≠ .starting ∧ s.fsm ≠ .sendingPage ∧ s.fsm ≠ .ending then
    { s with img := Memory.write s.img (imgKey q addr) v }
  else s

/-! ## Buffers -/

/-- A buffer of `n` bytes holding a sequence, cut or padded with 0x00. -/
def bufOf (n : Nat) (b : List Byte) : Vector Byte n := ⟨(fit n b).toArray, by simp [fit, zeros]⟩

/-- `b[o .. o+len(d)-1] <- d` on a byte sequence. -/
def poke (b : List Byte) (o : Nat) (d : List Byte) : List Byte := b.take o ++ d ++ b.drop (o + d.length)

/-- The reply bytes the block sees: `rx_buf[0 .. rx_len-1]` (R33, R160). -/
def State.rxBytes (s : State) : List Byte := s.rxBuf.toList.take s.rxLen.toNat

/-- The frame that stands in `tx_buf[0 .. tx_len-1]` (R32, R55). -/
def State.txFrame (s : State) : List Byte := s.txBuf.toList.take s.txLen.toNat

/-- Put a whole frame in `tx_buf` and set `tx_len` (R140); bytes of `tx_buf` beyond the frame stay. -/
def State.putFrame (s : State) (f : List Byte) : State :=
  { s with txBuf := bufOf 64 (poke s.txBuf.toList 0 f), txLen := BitVec.ofNat 7 f.length }

/-- Take delivery of an `Rx` answer's bytes: `rx_len`, the bytes below it, and free values at and beyond it (R33, log 8). -/
def State.putReply (s : State) (b : List Byte) : State :=
  { s with
    rxBuf := bufOf 10 (b.take 10 ++ ((List.range 10).drop b.length).map (Config.freeByte s.free))
    rxLen := BitVec.ofNat 4 (b.take 10).length
    free := s.free + 1 }

/-- Latch the value an operation returns (log 10). -/
def State.returns (s : State) (r : Result) : State := { s with result := r }

/-- Write `crc_reg` with a specified value (R30). -/
def State.putCrc (s : State) (w : Word) : State := { s with crcReg := w, crcInit := true }

/-- Stand at a phase (R222). -/
def State.atPhase (s : State) (p : Phase) : State := { s with phase := p }

/-- Emit an event (R9). -/
def State.emit (s : State) (e : Event) : State := { s with trace := s.trace ++ [e] }

/-- What tells a bench word's kind beside its bytes: the configured length, and the position it belongs to (R80, R97). -/
def State.ctx (s : State) (ending : Bool) : Ctx := ⟨s.endLen, ending⟩

/-- The level of the reset pin (R290). -/
def State.pinUp (s : State) : Bool := s.inputs.head?.any Input.rst

/-- The command the host issues, if any: the operand of a SEND (R98). -/
def State.command (s : State) : Option Byte := s.inputs.head?.bind Input.send

/-- What the host presents at this step is used up (log 14). -/
def State.nextInput (s : State) : State := { s with inputs := s.inputs.tail }

/-! ## The environment primitives (R13, R38) -/

/-- What `Rx(n)` delivers of a queued answer: never more than `n` bytes (R13, R33; log 3). -/
def RxAnswer.upTo (n : Nat) : RxAnswer → RxAnswer
  | .bytes b => .bytes (b.take n)
  | .err => .err

/-- `Tx(tx_buf[0..tx_len-1])` with the next answer: the event is emitted, `k` goes on with the answer. Without an answer the
block waits and nothing changes (R297, log 2). -/
def State.transmit (s : State) (k : State → TxAnswer → State) : State :=
  match s.txAns with
  | [] => s
  | a :: rest => k (State.emit { s with txAns := rest } (.tx s.txFrame a)) a

/-- The buffer after a delivered `Rx` answer: its bytes, or none after `RxErr` (R33). -/
def State.receive (s : State) : RxAnswer → State
  | .bytes b => s.putReply b
  | .err => s.putReply []

/-- `Rx(n)` with the next answer: delivery into `rx_buf`, the event, then `k`. Without an answer the block waits. -/
def State.request (s : State) (n : Nat) (k : State → RxAnswer → State) : State :=
  match s.rxAns with
  | [] => s
  | a :: rest => k ((State.receive { s with rxAns := rest } (a.upTo n)).emit (.rx n (a.upTo n))) (a.upTo n)

/-- `WaitUnit()` (R220): one elapsed unit is used and the event emitted, then `k`. Without one the block waits. -/
def State.await (s : State) (k : State → State) : State :=
  match s.ticks with
  | 0 => s
  | n + 1 => k (State.emit { s with ticks := n } .waitUnit)

/-! ## Terminal failure and leaving it (R219, R266, R267) -/

/-- Taking the terminal failure, `fail(step, q, p, c)` (R219): the report is written, `fsm` becomes FAILED, `Failed` is
emitted, nothing more runs. -/
def State.fail (s : State) (step : FailStep) (q : Plane) (p : Page) (c : Cause) : State :=
  State.emit
    { s with
      failStep := step, failPlane := q, failPage := p, failCause := c, fsm := .failed, phase := .idle
      result := .terminal (.failed step q p c) }
    (.terminal (.failed step q p c))

/-- Terminal success (R218). -/
def State.succeed (s : State) : State :=
  State.emit { s with fsm := .done, phase := .idle, result := .terminal .done } (.terminal .done)

/-- What an accepted SEND clears and sets before RUN (R210): leaving DONE or FAILED (R267). -/
def State.openSession (s : State) (operand : Byte) : State :=
  { s with
    slot := slotOf operand
    failStep := .none, failPlane := 0, failPage := 0, failCause := .none, lastCause := .none
    lastCmd16 := 0, lastStatus := 0, lastPage := 0, lastSlot16 := 0
    plane := 0, page := 0, sub := 0, attempt := 0 }

/-- Reset of every register (R290, R39); the image, the configuration, the environment's lists, the trace already emitted and
the counter of free values are no registers and stay (log 9). -/
def State.toReset (s : State) : State :=
  { State.reset with
    endLen := s.endLen, img := s.img, txAns := s.txAns, rxAns := s.rxAns, ticks := s.ticks, inputs := s.inputs
    bench := s.bench, trace := s.trace, free := s.free }

end Sys2Proof.Machine
end

