-- ==== Sys2Proof/Machine/Crc.lean ====
section
/-! DEFINITION. The checksum engine (40_crc.md): the pure functions of R122 to R124 and the meanings of CRC.INIT, CRC.BYTE,
CRC.FIN, CRC.SPAN. -/

namespace Sys2Proof.Machine

/-- One iteration of R122: test bit 0, shift right, XOR the polynomial if the bit was set. -/
def crcShift (r : Word) : Word := if r.getLsbD 0 then (r >>> 1) ^^^ Config.crcPoly else r >>> 1

/-- Iterations of R122. -/
def crcShifts : Nat → Word → Word
  | 0, r => r
  | n + 1, r => crcShifts n (crcShift r)

/-- The register after one byte: XOR into the low byte, then eight iterations (R122). -/
def crcUpdate (r : Word) (d : Byte) : Word := crcShifts 8 (r ^^^ d.setWidth 32)

/-- The register after a byte sequence, from the initial value (R121, R124). -/
def crcRegister (b : List Byte) : Word := b.foldl crcUpdate Config.crcInitial

/-- The final complement (R123). -/
def crcFinal (r : Word) : Word := ~~~r

/-- `checksum(b)` (R124). -/
def checksum (b : List Byte) : Word := crcFinal (crcRegister b)

/-- CRC.INIT (R121). -/
def execCrcInit (s : State) : Out := .next (s.putCrc Config.crcInitial)

/-- CRC.BYTE(d) (R122); on an unspecified `crc_reg` the result is a free value and stays unspecified (R30, log 7). -/
def execCrcByte (d : Byte) (s : State) : Out :=
  .next
    (if s.crcInit then s.putCrc (crcUpdate s.crcReg d)
     else { s with crcReg := Config.freeWord s.free, free := s.free + 1 })

/-- CRC.FIN (R123): returns the complement, `crc_reg` stays; on an unspecified `crc_reg` the value is free (R30, log 7). -/
def execCrcFin (s : State) : Out :=
  .next
    (if s.crcInit then s.returns (.word (crcFinal s.crcReg))
     else { s with result := .word (Config.freeWord s.free), free := s.free + 1 })

/-- CRC.SPAN(b) (R124): INIT, one BYTE per byte in index order, FIN. -/
def execCrcSpan (b : List Byte) (s : State) : Out :=
  .next ((s.putCrc (crcRegister b)).returns (.word (checksum b)))

end Sys2Proof.Machine
end

