-- ==== Sys2Proof/Machine/Flags.lean ====
section
/-! DEFINITION. The flags and codes: `busy`, `done`, `failed` (R32), the codes of causes and steps (R261, R28), the cause of
each failure (R213 to R215), the last-reply registers (R29). -/

namespace Sys2Proof.Machine

/-- `busy` = 1 exactly while `fsm` is STARTING, SENDING_PAGE or ENDING (R32). -/
def State.busy (s : State) : Bool :=
  match s.fsm with
  | .starting | .sendingPage | .ending => true
  | .idle | .done | .failed => false

/-- `done` = 1 exactly while `fsm` is DONE (R32). -/
def State.isDone (s : State) : Bool := s.fsm == .done

/-- `failed` = 1 exactly while `fsm` is FAILED (R32). -/
def State.isFailed (s : State) : Bool := s.fsm == .failed

/-- Something runs: a session, or a body or RETRY executed as an operation (R8: one agent, no concurrency). -/
def State.running (s : State) : Bool := s.busy || s.phase != .idle

/-- The bench word a step uses: none while anything runs (log 29). -/
def State.benchWord (s : State) : Option BenchWord := if s.running then none else s.bench

/-- The 4-bit code of a cause (R261). -/
def Cause.code : Cause → BitVec 4
  | .none => 0
  | .transport => 1
  | .length => 2
  | .magic => 3
  | .endMarker => 4
  | .startBusy => 5
  | .startError => 6
  | .startUnrecognized => 7
  | .pageCrc => 8
  | .pageMissing => 9
  | .pageTimeout => 10
  | .statusUnknown => 11

/-- The 2-bit code of `fail_step` (R20). -/
def FailStep.code : FailStep → BitVec 2
  | .none => 0
  | .start => 1
  | .page => 2
  | .finish => 3

/-- The cause of a reply that does not decode (R213 to R215). -/
def DecodeErr.cause : DecodeErr → Cause
  | .length => .length
  | .magic => .magic
  | .endMarker => .endMarker

/-- What a class of start-reply makes of the attempt; BUSY does so after its `WaitUnit` (R213, R220). -/
def StartClass.attempt : StartClass → AttemptResult
  | .ok => .success
  | .busy => .retry .startBusy
  | .error => .retry .startError
  | .unrecognized _ => .retry .startUnrecognized

/-- What a class of data-reply makes of the attempt (R214). -/
def DataClass.attempt : DataClass → AttemptResult
  | .ok => .success
  | .crcFamily _ => .retry .pageCrc
  | .missing _ => .retry .pageMissing
  | .timeout => .retry .pageTimeout
  | .unknown _ => .retry .statusUnknown

/-- What `last_cause` holds after an attempt (R34, R212). -/
def AttemptResult.lastCause : AttemptResult → Cause
  | .success => .none
  | .retry c => c

/-- The last-reply registers after a start-reply decode (R161, R167). -/
def State.noteStartReply (s : State) : DecodeResult StartReplyFields → State
  | .ok f => { s with lastCmd16 := f.command16, lastStatus := f.status8 }
  | .err _ => s

/-- The last-reply registers after a data-reply decode (R162, R167). -/
def State.noteDataReply (s : State) : DecodeResult DataReplyFields → State
  | .ok f => { s with lastCmd16 := f.command16, lastPage := f.page8, lastStatus := f.status8 }
  | .err _ => s

/-- The last-reply registers after an end-reply decode; `last_status` stays (R163, R167). -/
def State.noteEndReply (s : State) : DecodeResult EndReplyFields → State
  | .ok f => { s with lastCmd16 := f.command16, lastSlot16 := f.slot16 }
  | .err _ => s

end Sys2Proof.Machine
end

