-- ==== Sys2Proof/Machine/FrameDecode.lean ====
section
/-! DEFINITION. The reply decoders and status classifiers (42_frame_decode.md): DEC.SREPLY, DEC.DREPLY, DEC.EREPLY, CLS.START,
CLS.DATA. -/

namespace Sys2Proof.Machine

/-- `decode_common(b, N, has_marker)` (R160): length, then magic, then marker; `ok` if none fails. -/
def decodeCommon (b : List Byte) (n : Nat) (hasMarker : Bool) : DecodeResult Unit :=
  if b.length ≠ n then .err .length
  else if u16le b 0 ≠ Config.devMagic then .err .magic
  else if hasMarker ∧ u32le b (n - 4) ≠ Config.devEnd then .err .endMarker
  else .ok ()

/-- The result of DEC.SREPLY on a byte sequence (R161). -/
def startReplyOf (b : List Byte) : DecodeResult StartReplyFields :=
  match decodeCommon b Config.lenStartReply true with
  | .err e => .err e
  | .ok () => .ok ⟨u16le b 2, byteAt b 4, byteAt b 5⟩

/-- The result of DEC.DREPLY (R162). -/
def dataReplyOf (b : List Byte) : DecodeResult DataReplyFields :=
  match decodeCommon b Config.lenDataReply false with
  | .err e => .err e
  | .ok () => .ok ⟨u16le b 2, byteAt b 4, byteAt b 5⟩

/-- The result of DEC.EREPLY for the configured length (R163). -/
def endReplyOf (n : Config.EndLen) (b : List Byte) : DecodeResult EndReplyFields :=
  match decodeCommon b n.bytes true with
  | .err e => .err e
  | .ok () => .ok ⟨u16le b 2, u16le b 4⟩

/-- The class of a start-reply status (R164). -/
def startClassOf (st : Byte) : StartClass :=
  if st = 0x01 then .ok
  else if st = 0x02 then .busy
  else if st = 0xFF then .error
  else .unrecognized st

/-- The class of a data-reply status (R165). -/
def dataClassOf (st : Byte) : DataClass :=
  if st = 0x00 then .ok
  else if st.extractLsb' 4 4 = (0x1 : BitVec 4) then .crcFamily st
  else if st.extractLsb' 4 4 = (0x2 : BitVec 4) then .missing (st.extractLsb' 0 4)
  else if st = 0x30 then .timeout
  else .unknown st

/-- DEC.SREPLY(b) (R161). -/
def execDecSreply (b : List Byte) (s : State) : Out :=
  .next ((s.noteStartReply (startReplyOf b)).returns (.startReply (startReplyOf b)))

/-- DEC.DREPLY(b) (R162). -/
def execDecDreply (b : List Byte) (s : State) : Out :=
  .next ((s.noteDataReply (dataReplyOf b)).returns (.dataReply (dataReplyOf b)))

/-- DEC.EREPLY(b) (R163). -/
def execDecEreply (b : List Byte) (s : State) : Out :=
  .next ((s.noteEndReply (endReplyOf s.endLen b)).returns (.endReply (endReplyOf s.endLen b)))

/-- CLS.START(st) (R164). -/
def execClsStart (st : Byte) (s : State) : Out := .next (s.returns (.startClass (startClassOf st)))

/-- CLS.DATA(st) (R165). -/
def execClsData (st : Byte) (s : State) : Out := .next (s.returns (.dataClass (dataClassOf st)))

end Sys2Proof.Machine
end

