-- ==== Sys2Proof/Machine/Operands.lean ====
section
/-! DEFINITION. The operand forms: page coordinates and image addresses (R52), sub-frame payloads (R192), the frame and the
reply length of a step (R80). -/

namespace Sys2Proof.Machine

/-- `L(p)`: meaningful bytes of page `p` (R52, R191). -/
def pageBytes (p : Page) : Nat := if p.toNat ≤ 60 then Config.dataPerPage else Config.lastPageDataSize

/-- The image address of byte `i` of page `p`: `(p - 1) * 248 + i` (R52). -/
def pageAddr (p : Page) (i : Nat) : Nat := (p.toNat - 1) * Config.dataPerPage + i

/-- The meaningful bytes of page `p` of plane `q`, as read from the image store (R191). -/
def pageData (m : Memory) (q : Plane) (p : Page) : List Byte :=
  (List.range (pageBytes p)).map fun i => imgRead m q (pageAddr p i)

/-- The payload of sub-frame `k` cut from a page buffer and a page checksum (R192). -/
def subPayload (buf : List Byte) (crc : Word) (k : Sub) : List Byte :=
  if k.toNat ≤ 4 then (buf.drop ((k.toNat - 1) * Config.frameDataSize)).take Config.frameDataSize
  else (buf.drop 216).take Config.lastDataSize ++ le32 crc

/-- The payload of sub-frame `k` of the page held in the registers. -/
def State.payload (s : State) (k : Sub) : List Byte := subPayload s.pageBuf.toList s.pageCrc k

/-- The length `n` of the `Rx(n)` of a step: the expected reply's (R80, R213 to R215). -/
def replyBytes (n : Config.EndLen) : Body → Nat
  | .start => Config.lenStartReply
  | .page => Config.lenDataReply
  | .finish => n.bytes

/-- The `fail_step` value of a step body (R28, R216). -/
def failStepOf : Body → FailStep
  | .start => .start
  | .page => .page
  | .finish => .finish

/-- The operation a step begins an attempt with: SEG.PAGE for a page, the encoder for the others (R213 to R215). -/
def firstPhase : Body → Phase
  | .start => .enc []
  | .page => .segPage
  | .finish => .enc []

end Sys2Proof.Machine
end

