-- ==== Sys2Proof/Machine/FrameEncode.lean ====
section
/-! DEFINITION. The frame encoders (41_frame_encode.md): ENC.START, ENC.DATA, ENC.END, and the test bench's REF.SREPLY,
REF.DREPLY, REF.EREPLY. -/

namespace Sys2Proof.Machine

/-- ENC.START (R141). -/
def execEncStart (s : State) : Out := .next (s.putFrame (startFrame s.plane s.slot))

/-- The writes of R142 in their order: 64 zeros, header, payload from offset 8, the end-marker last. -/
def dataWrites (q : Plane) (sl : Slot) (p : Page) (k : Sub) (payload : List Byte) : List Byte :=
  let f := poke (zeros 64) 0 (le16 Config.hostMagic)
  let f := poke f 2 (le16 Config.cmdData)
  let f := poke f 4 [colorSlot q sl]
  let f := poke f 5 [p.setWidth 8]
  let f := poke f 6 [k.setWidth 8]
  let f := poke f 7 [0x00]
  let f := poke f 8 payload
  fit 64 (poke f 60 (le32 Config.hostEnd))

/-- ENC.DATA(P) (R142); a payload of another length than 54 or 36 is cut or padded alike (log 21). -/
def execEncData (payload : List Byte) (s : State) : Out :=
  .next (s.putFrame (dataWrites s.plane s.slot s.page s.sub payload))

/-- ENC.END (R143). -/
def execEncEnd (s : State) : Out := .next (s.putFrame (endFrameBytes s.slot))

/-- REF.SREPLY(c, st, r) (R144): returns the frame, touches nothing of the block. -/
def execRefSreply (c : Half) (st r : Byte) (s : State) : Out := .next (s.returns (.bytes (startReplyFrame c st r)))

/-- REF.DREPLY(c, p, st) (R145). -/
def execRefDreply (c : Half) (p st : Byte) (s : State) : Out := .next (s.returns (.bytes (dataReplyFrame c p st)))

/-- REF.EREPLY(c, sl) (R146), of the configured length. -/
def execRefEreply (c sl : Half) (s : State) : Out := .next (s.returns (.bytes (endReplyFrame s.endLen c sl)))

end Sys2Proof.Machine
end

