-- ==== Sys2Proof/Machine/Segment.lean ====
section
/-! DEFINITION. The page segmenter (43_segmenter.md): SEG.PAGE and SEG.SUB. -/

namespace Sys2Proof.Machine

/-- The registers SEG.PAGE(q, p) writes: the padded page, its length, its checksum, and `crc_reg`, which its CRC.SPAN leaves
at the register before the complement (R191, R124). -/
def State.loadPage (s : State) (q : Plane) (p : Page) : State :=
  State.putCrc
    { s with
      pageBuf := bufOf 248 (pageData s.img q p)
      pageLen := BitVec.ofNat 8 (pageBytes p)
      pageCrc := checksum (pageData s.img q p) }
    (crcRegister (pageData s.img q p))

/-- SEG.PAGE(q, p) (R191). A page outside 1..61 has no image address (R52): fault (log 17). -/
def execSegPage (q : Plane) (p : Page) (s : State) : Out :=
  if pageOk p then .next (s.loadPage q p) else .fault (.pageRange p)

/-- SEG.SUB(k) (R192): returns the payload. A number outside 1..5 names no sub-frame: fault (log 17). -/
def execSegSub (k : Sub) (s : State) : Out :=
  if subOk k then .next (s.returns (.bytes (s.payload k))) else .fault (.subRange k)

end Sys2Proof.Machine
end

