-- ==== Sys2Proof/Machine/Sequencer.lean ====
section
/-! DEFINITION. The transfer state machine (44_sequencer.md) and RESET: the control flow of R212 to R216 as one phase machine
(R222), `advance`, which runs one operation or one event at a time; SEND, RETRY, STEP.START, STEP.PAGE, STEP.END, RUN. -/

namespace Sys2Proof.Machine

/-! ## Entering a body, a retry loop, a session -/

/-- One more attempt of the current step begins (R212: `attempt <- attempt + 1`, then the body). -/
def State.beginAttempt (s : State) : State := { s with attempt := s.attempt + 1, phase := firstPhase s.body }

/-- A body begins, for itself alone. -/
def State.enterBody (s : State) (b : Body) : State := { s with body := b, scope := .body, phase := firstPhase b }

/-- RETRY(b) begins (R212): `attempt <- 0`, then the first attempt. -/
def State.enterRetry (s : State) (b : Body) (sc : Scope) : State :=
  State.beginAttempt { s with body := b, scope := sc, attempt := 0 }

/-- RUN begins plane `q` (R216): `plane <- q; page <- 0; fsm <- STARTING`, then its start step. -/
def State.enterPlane (s : State) (q : Plane) : State :=
  State.enterRetry { s with plane := q, page := 0, fsm := .starting } .start .run

/-- RUN begins page `p` (R216). -/
def State.enterPage (s : State) (p : Page) : State :=
  State.enterRetry { s with page := p, fsm := .sendingPage } .page .run

/-- RUN begins the end step (R216). -/
def State.enterEnd (s : State) : State :=
  State.enterRetry { s with page := 0, fsm := .ending } .finish .run

/-! ## One phase -/

/-- RUN after a step that succeeded (R216): page 1 after a start, the next page, the next plane, the end step, DONE. -/
def State.runNext (s : State) : State :=
  match s.body with
  | .start => s.enterPage 1
  | .page =>
    if s.page.toNat < Config.pagesPerColor then s.enterPage (s.page + 1)
    else if s.plane = 0 then s.enterPlane 1
    else s.enterEnd
  | .finish => s.succeed

/-- RUN after a step whose budget is exhausted (R216): `fail(START, q, 0, c)`, `fail(PAGE, q, p, c)`, `fail(END, 0, 0, c)`. -/
def State.runFail (s : State) (c : Cause) : State :=
  match s.body with
  | .start => s.fail .start s.plane 0 c
  | .page => s.fail .page s.plane s.page c
  | .finish => s.fail .finish 0 0 c

/-- The end of an attempt (R212): a body alone returns its result; RETRY notes the cause and returns or tries again. -/
def State.judge (s : State) (r : AttemptResult) : State :=
  match s.scope with
  | .body => (s.returns (.attempt r)).atPhase .idle
  | .retry | .run =>
    let t : State := { s with lastCause := r.lastCause }
    match r with
    | .success => t.atPhase (.ret .ok)
    | .retry c => if t.attempt = Config.maxAttempts then t.atPhase (.ret (.failed c)) else t.beginAttempt

/-- The end of a step: RETRY alone returns its result, RUN goes on or fails (R216). -/
def State.finishStep (s : State) (r : StepResult) : State :=
  match s.scope with
  | .body | .retry => (s.returns (.step r)).atPhase .idle
  | .run =>
    match r with
    | .ok => s.runNext
    | .failed c => s.runFail c

/-- The encoder of the step (R213 to R215). -/
def encodeOf (b : Body) (payload : List Byte) (s : State) : Out :=
  match b with
  | .start => execEncStart s
  | .page => execEncData payload s
  | .finish => execEncEnd s

/-- A page attempt leaves its sub-frames: `sub <- 0` (R214); the other steps do not touch `sub`. -/
def State.leaveSubs (s : State) : State := if s.body = .page then { s with sub := 0 } else s

/-- After an answered `Tx`: on an error the attempt ends; else the next sub-frame, or the reply (R213 to R215). -/
def State.afterTx (s : State) (a : TxAnswer) : State :=
  match a with
  | .err => s.leaveSubs.atPhase (.judge (.retry .transport))
  | .ok =>
    if s.body = .page ∧ s.sub.toNat < 5 then { s with sub := s.sub + 1, phase := .segSub }
    else s.leaveSubs.atPhase .rx

/-- After an answered `Rx` (R213 to R215). -/
def State.afterRx (s : State) (a : RxAnswer) : State :=
  match a with
  | .err => s.atPhase (.judge (.retry .transport))
  | .bytes _ => s.atPhase .dec

/-- The decoder of the step on the received bytes. -/
def decoderOf (b : Body) (r : List Byte) (s : State) : Out :=
  match b with
  | .start => execDecSreply r s
  | .page => execDecDreply r s
  | .finish => execDecEreply r s

/-- Where a decode result leads: an error ends the attempt; a status is classified; an end-reply is a success (R213 to R215). -/
def afterDecode (n : Config.EndLen) (b : Body) (r : List Byte) : Phase :=
  match b with
  | .start =>
    match startReplyOf r with
    | .ok f => .cls f.status8
    | .err e => .judge (.retry e.cause)
  | .page =>
    match dataReplyOf r with
    | .ok f => .cls f.status8
    | .err e => .judge (.retry e.cause)
  | .finish =>
    match endReplyOf n r with
    | .ok _ => .judge .success
    | .err e => .judge (.retry e.cause)

/-- The classifier of the step. -/
def classifierOf (b : Body) (st : Byte) (s : State) : Out :=
  match b with
  | .start => execClsStart st s
  | .page | .finish => execClsData st s

/-- Where a status leads: BUSY waits one unit first (R213, R220), every other class ends the attempt. -/
def afterClass (b : Body) (st : Byte) : Phase :=
  match b with
  | .start => if startClassOf st = .busy then .backoff else .judge (startClassOf st).attempt
  | .page | .finish => .judge (dataClassOf st).attempt

/-- One phase of the sequencer: one operation of the table, one environment event, or one decision of RETRY and RUN. -/
def advance (s : State) : Out :=
  match s.phase with
  | .idle => .next s
  | .segPage => onNext (execSegPage s.plane s.page s) fun t => { t with sub := 1, phase := .segSub }
  | .segSub => onNext (execSegSub s.sub s) fun t => t.atPhase (.enc (s.payload s.sub))
  | .enc payload => onNext (encodeOf s.body payload s) fun t => t.atPhase .tx
  | .tx => .next (s.transmit State.afterTx)
  | .rx => .next (s.request (replyBytes s.endLen s.body) State.afterRx)
  | .dec => onNext (decoderOf s.body s.rxBytes s) fun t => t.atPhase (afterDecode s.endLen s.body s.rxBytes)
  | .cls st => onNext (classifierOf s.body st s) fun t => t.atPhase (afterClass s.body st)
  | .backoff => .next (s.await fun t => t.atPhase (.judge (.retry .startBusy)))
  | .judge r => .next (s.judge r)
  | .ret r => .next (s.finishStep r)

/-! ## Running as far as the answers reach -/

/-- The sequencer cannot go on: nothing runs, or an operation waits for an answer of the environment (R271, R297). -/
def State.atRest (s : State) : Bool :=
  match s.phase with
  | .idle => true
  | .tx => s.txAns.isEmpty
  | .rx => s.rxAns.isEmpty
  | .backoff => s.ticks == 0
  | .segPage | .segSub | .enc _ | .dec | .cls _ | .judge _ | .ret _ => false

/-- At most `n` phases, until the sequencer is at rest. -/
def drive : Nat → State → Out
  | 0, s => .next s
  | n + 1, s =>
    if s.atRest then .next s
    else
      match advance s with
      | .next t => drive n t
      | .fault r => .fault r
      | .refused r => .refused r

/-- No body has more phases than this: SEG.PAGE, five times SEG.SUB, ENC.DATA, Tx, then Rx, DEC, CLS, judging. -/
def bodyPhases : Nat := 20

/-- Three attempts and the return. -/
def retryPhases : Nat := 3 * bodyPhases + 1

/-- The 125 steps of a session (R224). -/
def runPhases : Nat := 125 * retryPhases

/-! ## The meanings -/

/-- SEND(operand) (R210, R223): accepted unless a session runs; the session's state is set and RUN begins. Its events follow
one a step (log 15). While a session runs the command changes nothing. -/
def execSend (operand : Byte) (s : State) : Out :=
  if s.busy then .next s else .next ((s.openSession operand).enterPlane 0)

/-- RESET (R290, R291). -/
def execReset (s : State) : Out := .next s.toReset

/-- RETRY(body) (R212), as far as the environment has answered. -/
def execRetry (b : Body) (s : State) : Out := drive retryPhases (s.enterRetry b .retry)

/-- STEP.START (R213). -/
def execStepStart (s : State) : Out := drive bodyPhases (s.enterBody .start)

/-- STEP.PAGE (R214). -/
def execStepPage (s : State) : Out := drive bodyPhases (s.enterBody .page)

/-- STEP.END (R215). -/
def execStepEnd (s : State) : Out := drive bodyPhases (s.enterBody .finish)

/-- RUN (R216): the session from its first start step, as far as the environment has answered. -/
def execRun (s : State) : Out := drive runPhases (s.enterPlane 0)

end Sys2Proof.Machine
end

