-- ==== Sys2Proof/Machine/Wire.lean ====
section
/-! DEFINITION. The six wire-frame rows (log 11). A frame's row has the semantics of the rule the table names for it: a host
frame's that of its encoder, with the frame's own fields, so TXB is written by an encoder (R50); a reply's that of its decoder
on the frame's bytes, so RXB, which only `Rx` writes (R50), is not touched. -/

namespace Sys2Proof.Machine

/-- START q s (R82, R141): the frame stands in `tx_buf`. -/
def execStart (q : Plane) (sl : Slot) (s : State) : Out := .next (s.putFrame (startFrame q sl))

/-- DATA q s p k with its 52 payload bytes (R84, R142). -/
def execData (q : Plane) (sl : Slot) (p : Page) (k : Sub) (payload : List Byte) (s : State) : Out :=
  .next (s.putFrame (dataFrame q sl p k payload))

/-- END s (R83, R143). -/
def execEndFrame (sl : Slot) (s : State) : Out := .next (s.putFrame (endFrameBytes sl))

/-- START_REPLY (R86): decoded (R161). -/
def execStartReply (c : Half) (st r : Byte) (s : State) : Out :=
  let d := startReplyOf (startReplyFrame c st r)
  .next ((s.noteStartReply d).returns (.startReply d))

/-- DATA_REPLY (R86): decoded (R162). -/
def execDataReply (c : Half) (p st : Byte) (s : State) : Out :=
  let d := dataReplyOf (dataReplyFrame c p st)
  .next ((s.noteDataReply d).returns (.dataReply d))

/-- END_REPLY (R87): decoded (R163). -/
def execEndReply (c sl : Half) (s : State) : Out :=
  let d := endReplyOf s.endLen (endReplyFrame s.endLen c sl)
  .next ((s.noteEndReply d).returns (.endReply d))

end Sys2Proof.Machine
end

