-- ==== Sys2Proof/Machine/Dispatch.lean ====
section
/-! DEFINITION. One arm per operation and frame of the table, each one direct call of its meaning. -/

namespace Sys2Proof.Machine

def exec (i : Instr) (s : State) : Host.Outcome State Fault Refusal :=
  match i with
  -- wire frames (R82 to R87)
  | .start plane slot => Sys2Proof.Machine.execStart plane slot s
  | .data plane slot page sub payload => Sys2Proof.Machine.execData plane slot page sub payload s
  | .endFrame slot => Sys2Proof.Machine.execEndFrame slot s
  | .startReply c st r => Sys2Proof.Machine.execStartReply c st r s
  | .dataReply c p st => Sys2Proof.Machine.execDataReply c p st s
  | .endReply c sl => Sys2Proof.Machine.execEndReply c sl s
  -- host (R210, R290)
  | .send operand => Sys2Proof.Machine.execSend operand s
  | .reset => Sys2Proof.Machine.execReset s
  -- checksum (R121 to R124)
  | .crcInit => Sys2Proof.Machine.execCrcInit s
  | .crcByte d => Sys2Proof.Machine.execCrcByte d s
  | .crcFin => Sys2Proof.Machine.execCrcFin s
  | .crcSpan b => Sys2Proof.Machine.execCrcSpan b s
  -- frame encode (R141 to R146)
  | .encStart => Sys2Proof.Machine.execEncStart s
  | .encData p => Sys2Proof.Machine.execEncData p s
  | .encEnd => Sys2Proof.Machine.execEncEnd s
  | .refSreply c st r => Sys2Proof.Machine.execRefSreply c st r s
  | .refDreply c p st => Sys2Proof.Machine.execRefDreply c p st s
  | .refEreply c sl => Sys2Proof.Machine.execRefEreply c sl s
  -- reply decode (R161 to R165)
  | .decSreply b => Sys2Proof.Machine.execDecSreply b s
  | .decDreply b => Sys2Proof.Machine.execDecDreply b s
  | .decEreply b => Sys2Proof.Machine.execDecEreply b s
  | .clsStart st => Sys2Proof.Machine.execClsStart st s
  | .clsData st => Sys2Proof.Machine.execClsData st s
  -- segmenter (R191, R192)
  | .segPage q p => Sys2Proof.Machine.execSegPage q p s
  | .segSub k => Sys2Proof.Machine.execSegSub k s
  -- sequencer (R212 to R216)
  | .retry body => Sys2Proof.Machine.execRetry body s
  | .stepStart => Sys2Proof.Machine.execStepStart s
  | .stepPage => Sys2Proof.Machine.execStepPage s
  | .stepEnd => Sys2Proof.Machine.execStepEnd s
  | .run => Sys2Proof.Machine.execRun s

end Sys2Proof.Machine
end

