-- ==== Sys2Proof/Machine/Step.lean ====
section
/-! DEFINITION. One step of the machine (log 14): the reset pin first (R265), then a word on the test bench if nothing runs
(log 29), then the host's command, else one phase of the sequencer. The block has no program counter and fetches no program
(R21, R57). -/

namespace Sys2Proof.Machine

/-- Execute a word of the table, or refuse it by name. -/
def runWord (b : BenchWord) (s : State) : Host.Outcome State Fault Refusal :=
  match decode (s.ctx b.ending) b.word with
  | .ok i => exec i s
  | .reject r => .refused (.undecodable r)

/-- One step. -/
def step (s : State) : Host.Outcome State Fault Refusal :=
  if s.pinUp then exec .reset s.nextInput
  else
    match s.benchWord with
    | some b => runWord b { s with bench := none }
    | none =>
      match s.command with
      | some o => exec (.send o) s.nextInput
      | none => advance s.nextInput

/-- `s` with a table word on the test bench and the reset pin low, so that the next step runs it when nothing runs in `s`. -/
def State.withFetchWord (s : State) (nbits w : Nat) : State :=
  { s with bench := some ⟨false, wordBytes nbits w⟩, inputs := s.inputs.dropWhile Input.rst }

end Sys2Proof.Machine
end

