-- ==== Sys2Proof/Safety.lean ====
section
/-! DEFINITION. The terms in which claims about the machine are made: the invariants of R41 and of the sequencer's place, the
frame a position sends, the verdict a reply gives an attempt, and what an operation leaves alone. -/

namespace Sys2Proof.Machine

/-! ## Frames: groups of registers an operation leaves alone -/

/-- The session's position and slot are unchanged. -/
def SamePosition (s t : State) : Prop :=
  t.fsm = s.fsm ∧ t.plane = s.plane ∧ t.page = s.page ∧ t.attempt = s.attempt ∧ t.slot = s.slot

/-- The page registers and the checksum engine are unchanged. -/
def SamePage (s t : State) : Prop :=
  t.pageBuf = s.pageBuf ∧ t.pageLen = s.pageLen ∧ t.pageCrc = s.pageCrc ∧ t.crcReg = s.crcReg ∧ t.crcInit = s.crcInit

/-- The failure report is unchanged. -/
def SameReport (s t : State) : Prop :=
  t.failStep = s.failStep ∧ t.failPlane = s.failPlane ∧ t.failPage = s.failPage ∧ t.failCause = s.failCause

/-- The last-reply registers are unchanged. -/
def SameReply (s t : State) : Prop :=
  t.lastCmd16 = s.lastCmd16 ∧ t.lastStatus = s.lastStatus ∧ t.lastPage = s.lastPage ∧ t.lastSlot16 = s.lastSlot16

/-- The image store (every byte of it) and the configuration are unchanged. -/
def SameImage (s t : State) : Prop := t.img = s.img ∧ t.endLen = s.endLen

/-! ## The sequencer's place -/

/-- The step body a busy state runs (R216). -/
def stepOf : Fsm → Option Body
  | .starting => some .start
  | .sendingPage => some .page
  | .ending => some .finish
  | .idle | .done | .failed => none

/-- Phases that only some bodies have: SEG.PAGE and SEG.SUB in a page, WaitUnit in a start, a classifier not in the end step
(R213 to R215). -/
def phaseFits (b : Body) : Phase → Bool
  | .segPage | .segSub => b == .page
  | .backoff => b == .start
  | .cls _ => b != .finish
  | .idle | .enc _ | .tx | .rx | .dec | .judge _ | .ret _ => true

/-- A sub-frame is being built or sent (R25): between SEG.PAGE and the last `Tx` of a page attempt. -/
def State.inSubFrame (s : State) : Bool :=
  match s.phase with
  | .segSub | .enc _ | .tx => s.busy && s.body == .page
  | .idle | .segPage | .rx | .dec | .cls _ | .backoff | .judge _ | .ret _ => false

/-- SEG.PAGE has run for the page the position names. -/
def State.pageLoaded (s : State) : Bool := s.page != 0 && (s.phase != .segPage || 1 < s.attempt.toNat)

/-- The sequencer's registers fit together: idle exactly outside a session, the running body is the state's, the attempt counter
runs, `sub` is in use only inside a page attempt (R25, R26, R32, R212). -/
def ControlInv (s : State) : Prop :=
  (s.busy = false → s.phase = .idle ∧ s.sub = 0) ∧
  (s.busy = true → s.phase ≠ .idle ∧ s.scope = .run ∧ stepOf s.fsm = some s.body ∧ s.attempt ≠ 0 ∧
    phaseFits s.body s.phase = true) ∧
  (s.inSubFrame = true → subOk s.sub = true) ∧
  (s.inSubFrame = false → s.sub = 0)

/-- R41: what holds of the position, the report and the page length. -/
def PositionInv (s : State) : Prop :=
  (s.fsm = .sendingPage → 1 ≤ s.page.toNat ∧ s.page.toNat ≤ 61) ∧
  (s.fsm = .idle ∨ s.fsm = .starting ∨ s.fsm = .ending ∨ s.fsm = .done → s.page = 0) ∧
  s.attempt.toNat ≤ 3 ∧
  s.busy.toNat + s.isDone.toNat + s.isFailed.toNat ≤ 1 ∧
  (s.fsm = .failed ↔ s.failStep ≠ .none) ∧
  (s.fsm = .ending ∨ s.fsm = .done → s.plane = 1) ∧
  (s.pageLoaded = true → (s.page = 61 → s.pageLen = 120) ∧ (1 ≤ s.page.toNat ∧ s.page.toNat ≤ 60 → s.pageLen = 248))

/-- What the failure registers hold: a pending verdict is noted, and a failed session reports the step, the third attempt and
the cause of its last failed attempt (R34, R212, R219). -/
def ReportInv (s : State) : Prop :=
  (∀ c, s.phase = .judge (.retry c) → c ≠ .none) ∧
  (s.phase = .ret .ok → s.lastCause = .none) ∧
  (∀ c, s.phase = .ret (.failed c) → c ≠ .none ∧ s.lastCause = c ∧ s.attempt = 3) ∧
  (s.fsm = .failed → s.failCause = s.lastCause ∧ s.failCause ≠ .none ∧ s.attempt = 3) ∧
  (s.fsm ≠ .failed → s.failPlane = 0 ∧ s.failPage = 0 ∧ s.failCause = .none) ∧
  (s.failStep = .start → s.failPlane = s.plane ∧ s.failPage = 0 ∧ s.page = 0) ∧
  (s.failStep = .page → s.failPlane = s.plane ∧ s.failPage = s.page ∧ 1 ≤ s.page.toNat ∧ s.page.toNat ≤ 61) ∧
  (s.failStep = .finish → s.failPlane = 0 ∧ s.failPage = 0 ∧ s.plane = 1 ∧ s.page = 0)

/-- The invariant of the sequencer: all of the above. -/
def Inv (s : State) : Prop := ControlInv s ∧ PositionInv s ∧ ReportInv s

/-! ## What is on the wire -/

/-- The padded page of plane `q` as the image store holds it (R191). -/
def pageImage (m : Memory) (q : Plane) (p : Page) : List Byte := fit 248 (pageData m q p)

/-- The frame the sequencer's position sends (R213 to R215), from the image store. -/
def State.dueFrame (s : State) : List Byte :=
  match s.body with
  | .start => startFrame s.plane s.slot
  | .page => dataFrame s.plane s.slot s.page s.sub
      (subPayload (pageImage s.img s.plane s.page) (checksum (pageData s.img s.plane s.page)) s.sub)
  | .finish => endFrameBytes s.slot

/-- The page registers hold the current page of the image, the payload under construction is its sub-frame's, and a frame about
to be sent is the one the position calls for (R31, R142, R191, R192). -/
def WireInv (s : State) : Prop :=
  (s.busy = true → s.pageLoaded = true →
    s.pageBuf.toList = pageImage s.img s.plane s.page ∧ s.pageCrc = checksum (pageData s.img s.plane s.page)) ∧
  (s.busy = true → s.body = .page → ∀ p, s.phase = .enc p → p = s.payload s.sub) ∧
  (s.busy = true → s.phase = .tx → s.txFrame = s.dueFrame)

/-! ## Verdicts on an attempt, from the answers alone (R213 to R215, R265) -/

/-- The verdict on a start-reply answer, in the order of R265. -/
def startVerdict : RxAnswer → AttemptResult
  | .err => .retry .transport
  | .bytes b =>
    if b.length ≠ 10 then .retry .length
    else if u16le b 0 ≠ 0x5A5A then .retry .magic
    else if u32le b 6 ≠ 0x5A5A5F5F then .retry .endMarker
    else if byteAt b 4 = 0x01 then .success
    else if byteAt b 4 = 0x02 then .retry .startBusy
    else if byteAt b 4 = 0xFF then .retry .startError
    else .retry .startUnrecognized

/-- The verdict on a data-reply answer. -/
def pageVerdict : RxAnswer → AttemptResult
  | .err => .retry .transport
  | .bytes b =>
    if b.length ≠ 6 then .retry .length
    else if u16le b 0 ≠ 0x5A5A then .retry .magic
    else if byteAt b 5 = 0x00 then .success
    else if 0x10 ≤ (byteAt b 5).toNat ∧ (byteAt b 5).toNat ≤ 0x1F then .retry .pageCrc
    else if 0x20 ≤ (byteAt b 5).toNat ∧ (byteAt b 5).toNat ≤ 0x2F then .retry .pageMissing
    else if byteAt b 5 = 0x30 then .retry .pageTimeout
    else .retry .statusUnknown

/-- The verdict on an end-reply answer; no status is examined. -/
def endVerdict (n : Config.EndLen) : RxAnswer → AttemptResult
  | .err => .retry .transport
  | .bytes b =>
    if b.length ≠ n.bytes then .retry .length
    else if u16le b 0 ≠ 0x5A5A then .retry .magic
    else if u32le b (n.bytes - 4) ≠ 0x5A5A5F5F then .retry .endMarker
    else .success

/-- The verdict of a step on its reply. -/
def verdict (n : Config.EndLen) : Body → RxAnswer → AttemptResult
  | .start, a => startVerdict a
  | .page, a => pageVerdict a
  | .finish, a => endVerdict n a

/-- How the environment answers one attempt: the `Tx` of its frame `j + 1` fails, or every `Tx` succeeds and the `Rx` is answered
(R213 to R215, R265). -/
inductive Exchange where
  | txErr (j : Nat)
  | reply (a : RxAnswer)
  deriving DecidableEq, Repr

/-- The frames an attempt of a step sends (R213 to R215). -/
def frameCount : Body → Nat
  | .start | .finish => 1
  | .page => 5

/-- The frame whose `Tx` fails is one of the attempt's. -/
def Exchange.fits (b : Body) : Exchange → Bool
  | .txErr j => j < frameCount b
  | .reply _ => true

/-- The answers to `Tx` that an attempt so answered uses. -/
def Exchange.txUsed (b : Body) : Exchange → List TxAnswer
  | .txErr j => List.replicate j .ok ++ [.err]
  | .reply _ => List.replicate (frameCount b) .ok

/-- The answers to `Rx` that it uses: none after a failed `Tx`. -/
def Exchange.rxUsed : Exchange → List RxAnswer
  | .txErr _ => []
  | .reply a => [a]

/-- The verdict on an attempt so answered. A queued answer counts as its first bytes (log 3). -/
def Exchange.verdict (n : Config.EndLen) (b : Body) : Exchange → AttemptResult
  | .txErr _ => .retry .transport
  | .reply a => Machine.verdict n b (a.upTo (replyBytes n b))

/-! ## Runs -/

/-- The host presents nothing at this step, and no bench word is used. -/
def State.quiet (s : State) : Prop := s.inputs = [] ∧ s.benchWord = none

/-- A machine right after reset in some environment: the block's registers as State.reset has them, any image, configuration,
answers and host inputs. The test bench is empty: it is the model's instrument and no part of the environment (log 29). -/
def State.Booted (s : State) : Prop :=
  ∃ endLen img txAns rxAns ticks inputs free,
    s = { State.reset with endLen := endLen, img := img, txAns := txAns, rxAns := rxAns, ticks := ticks, inputs := inputs, free := free }

/-- The states a machine can be in after reset, in any environment. -/
inductive Reachable : State → Prop where
  | boot {s : State} : s.Booted → Reachable s
  | step {s t : State} : Reachable s → step s = .next t → Reachable t

/-- How many `Tx`, `Rx`, `WaitUnit` events a trace holds, and the bytes sent and requested (R224). -/
structure Tally where
  tx : Nat
  rx : Nat
  wait : Nat
  bytesSent : Nat
  bytesAsked : Nat
  deriving DecidableEq, Repr

/-- The tally of a trace. -/
def tally : List Event → Tally
  | [] => ⟨0, 0, 0, 0, 0⟩
  | .tx f _ :: r => { tally r with tx := (tally r).tx + 1, bytesSent := (tally r).bytesSent + f.length }
  | .rx n _ :: r => { tally r with rx := (tally r).rx + 1, bytesAsked := (tally r).bytesAsked + n }
  | .waitUnit :: r => { tally r with wait := (tally r).wait + 1 }
  | .terminal _ :: r => tally r

/-- The frames a trace hands to the transport, in order. -/
def framesSent : List Event → List (List Byte)
  | [] => []
  | .tx f _ :: r => f :: framesSent r
  | .rx _ _ :: r | .waitUnit :: r | .terminal _ :: r => framesSent r

/-- The five DATA frames of page `p` of plane `q` (R214, R85). -/
def pageFrames (m : Memory) (sl : Slot) (q : Plane) (p : Page) : List (List Byte) :=
  [1, 2, 3, 4, 5].map fun k => dataFrame q sl p k (subPayload (pageImage m q p) (checksum (pageData m q p)) k)

/-- The frames of plane `q` in order: START, then the pages 1 to 61 (R63, R216). -/
def planeFrames (m : Memory) (sl : Slot) (q : Plane) : List (List Byte) :=
  startFrame q sl :: (List.range 61).flatMap fun i => pageFrames m sl q (BitVec.ofNat 6 (i + 1))

/-- The frames of a session in which every attempt succeeds at once (R63, R216, R224). -/
def sessionFrames (m : Memory) (sl : Slot) : List (List Byte) :=
  planeFrames m sl 0 ++ planeFrames m sl 1 ++ [endFrameBytes sl]

/-! ## Operations in sequence, and the operation the sequencer stands at -/

/-- Operations executed one after another (R100). -/
def runOps : List Instr → State → Out
  | [], s => .next s
  | i :: rest, s =>
    match exec i s with
    | .next t => runOps rest t
    | .fault r => .fault r
    | .refused r => .refused r

/-- The bytes an operation sequence returns, if it returns bytes. -/
def bytesOf : Out → List Byte
  | .next s =>
    match s.result with
    | .bytes b => b
    | .none | .word _ | .startReply _ | .dataReply _ | .endReply _ | .startClass _ | .dataClass _ | .attempt _ | .step _
    | .terminal _ => []
  | .fault _ => []
  | .refused _ => []

/-- The operation of the table that the sequencer executes next, if its phase is one (R213 to R215). -/
def State.nextOp (s : State) : Option Instr :=
  match s.phase, s.body with
  | .segPage, _ => some (.segPage s.plane s.page)
  | .segSub, _ => some (.segSub s.sub)
  | .enc _, .start => some .encStart
  | .enc p, .page => some (.encData p)
  | .enc _, .finish => some .encEnd
  | .dec, .start => some (.decSreply s.rxBytes)
  | .dec, .page => some (.decDreply s.rxBytes)
  | .dec, .finish => some (.decEreply s.rxBytes)
  | .cls st, .start => some (.clsStart st)
  | .cls st, .page => some (.clsData st)
  | .cls _, .finish | .idle, _ | .tx, _ | .rx, _ | .backoff, _ | .judge _, _ | .ret _, _ => none

/-- The phases of R222: PH_BUILD, PH_TX, PH_RX, PH_BACKOFF, PH_JUDGE, and none outside an attempt. -/
inductive PhaseGroup where
  | none
  | build
  | tx
  | rx
  | backoff
  | judge
  deriving DecidableEq, Repr

/-- The phase of R222 that a phase of the model belongs to (log 27). -/
def Phase.group : Phase → PhaseGroup
  | .idle => .none
  | .segPage | .segSub | .enc _ => .build
  | .tx => .tx
  | .rx | .dec | .cls _ => .rx
  | .backoff => .backoff
  | .judge _ | .ret _ => .judge

/-- Where a phase of R222 may lead: one of the phases of its last column, or itself (a part of it done, or waiting); and
PH_RX to PH_BACKOFF: R222 has no such arrow in its last column, only PH_BACKOFF "entered" on "start-reply status BUSY", and
the model takes it from there. DESIGN CHOICE (log 27). -/
def PhaseGroup.leadsTo : PhaseGroup → PhaseGroup → Bool
  | .none, g => g == .none
  | .build, g => g == .build || g == .tx
  | .tx, g => g == .tx || g == .build || g == .rx || g == .judge
  | .rx, g => g == .rx || g == .backoff || g == .judge
  | .backoff, g => g == .backoff || g == .judge
  | .judge, g => g == .judge || g == .build || g == .none

/-- The place after a place of the session, in the order of R216: the pages 1 to 61 of plane 0, plane 1's start and pages, the
end step. -/
def nextPlace : Fsm → Plane → Page → Option (Fsm × Plane × Page)
  | .starting, q, _ => some (.sendingPage, q, 1)
  | .sendingPage, q, p =>
    if p.toNat < 61 then some (.sendingPage, q, p + 1)
    else if q = 0 then some (.starting, 1, 0)
    else some (.ending, q, 0)
  | .ending, _, _ | .idle, _, _ | .done, _, _ | .failed, _, _ => none

end Sys2Proof.Machine
end

