-- ==== Sys2Proof/Certificates/Slice0/Obligations.lean ====
section
/-! DEFINITION. The statements for the provers. Each docstring names the rule of spec/ it comes from; where a clause rests on a
choice of the model it names the assumption log. -/

open Sys2Proof Sys2Proof.Machine

/-! ## Encoding and decoding -/

/-- R80 to R87, R97: the bytes of a frame or command, decoded where the protocol position tells it apart, give it back with every
field its bytes keep (all but `slot16` of an 8-byte END_REPLY). -/
def Obligations.DecodeOfEncodeIsTheFrame : Prop :=
  ∀ (c : Ctx) (i : Instr) (b : List Byte),
    i.wf = true → c.tells i = true → encode c i = some b → decode c b = .ok (c.keeps i)

/-- R80 to R87, R96: the decoder accepts no other bytes than an encoding: what it reads encodes to the bytes it read. -/
def Obligations.EncodeOfDecodeIsTheWord : Prop :=
  ∀ (c : Ctx) (b : List Byte) (i : Instr), decode c b = .ok i → encode c i = some b

/-- Words written out from the layouts of R82 to R87 and R98 decode to what they stand for (the vectors V11, V15, V24, V26, V27
of 95_test_vectors.md and a DATA frame by R84). -/
def Obligations.WordsOfTheLayoutsDecode : Prop :=
  decode .default [0xA5, 0xA5, 0xC3, 0x00, 0x13, 0x00, 0xAF, 0xAF, 0xA5, 0xA5] = .ok (.start 1 3) ∧
  decode .default [0xA5, 0xA5, 0xC1, 0x00, 0x00, 0x00, 0xAF, 0xAF, 0xA5, 0xA5] = .ok (.endFrame 0) ∧
  decode .default [0x5A, 0x5A, 0xC3, 0x00, 0x01, 0x00, 0x5F, 0x5F, 0x5A, 0x5A] = .ok (.startReply 0x00C3 0x01 0x00) ∧
  decode .default [0x5A, 0x5A, 0xD0, 0x00, 0x3D, 0x23] = .ok (.dataReply 0x00D0 0x3D 0x23) ∧
  decode .default [0x5A, 0x5A, 0xC3, 0x00, 0x5F, 0x5F, 0x5A, 0x5A] = .ok (.endReply 0x00C3 0x5F5F) ∧
  decode ⟨.ten, true⟩ [0x5A, 0x5A, 0xC3, 0x00, 0x03, 0x00, 0x5F, 0x5F, 0x5A, 0x5A] = .ok (.endReply 0x00C3 0x0003) ∧
  decode .default [0x13] = .ok (.send 0x13) ∧
  decode .default ([0xA5, 0xA5, 0xD0, 0x00, 0x03, 0x3D, 0x04, 0x00] ++ List.replicate 52 0x00 ++ [0xAF, 0xAF, 0xA5, 0xA5])
    = .ok (.data 0 3 61 4 (List.replicate 52 0))

/-- R97: for odd slots START of plane 0 and END are the same ten bytes; for an even slot `s` END has byte 2 = `0xC0 | (s + 1)` and
byte 4 = `s`, and no START frame is equal to it. -/
def Obligations.StartAndEndCollideForOddSlotsOnly : Prop :=
  (∀ s : Slot, s.getLsbD 0 = true →
    startFrame 0 s = [0xA5, 0xA5, 0xC0 ||| s.setWidth 8, 0x00, s.setWidth 8, 0x00, 0xAF, 0xAF, 0xA5, 0xA5] ∧
    endFrameBytes s = startFrame 0 s) ∧
  (∀ s : Slot, s.getLsbD 0 = false →
    (endFrameBytes s)[2]? = some (0xC0 ||| (s + 1).setWidth 8) ∧ (endFrameBytes s)[4]? = some (s.setWidth 8) ∧
    ∀ (q : Plane) (s' : Slot), endFrameBytes s ≠ startFrame q s')

/-- What a step executes, the reset pin being low: the instruction a word on the test bench decodes to, when nothing runs (the
bench is the model's, log 29); else the host's SEND; else one phase of the sequencer (log 1, log 14). While anything runs no
bench word is executed. -/
def Obligations.StepRunsThePresentedWord : Prop :=
  (∀ (s : State) (b : BenchWord) (i : Instr), s.pinUp = false → s.running = false → s.bench = some b →
    decode ⟨s.endLen, b.ending⟩ b.word = .ok i → step s = exec i { s with bench := none }) ∧
  (∀ s : State, s.pinUp = false → s.running = true ∨ s.bench = none →
    (∀ o, s.command = some o → step s = exec (.send o) { s with inputs := s.inputs.tail }) ∧
    (s.command = none → step s = advance { s with inputs := s.inputs.tail }))

/-- The word placed by withFetchWord is the table word: when nothing runs, the next step runs the instruction the decoder reads
(log 12, log 14, log 29); with the reset pin low, nothing but the bench is used. -/
def Obligations.FetchWordIsExecutedNext : Prop :=
  ∀ (s : State) (nbits w : Nat) (i : Instr), s.running = false → decode ⟨s.endLen, false⟩ (wordBytes nbits w) = .ok i →
    step (s.withFetchWord nbits w) = exec i { s with bench := none, inputs := s.inputs.dropWhile Input.rst } ∧
    (s.pinUp = false → step (s.withFetchWord nbits w) = exec i { s with bench := none })

/-- A bench word that is no row of the table is refused by name (log 18). -/
def Obligations.UndecodableWordIsRefused : Prop :=
  ∀ (s : State) (b : BenchWord) (r : Reject), s.pinUp = false → s.running = false → s.bench = some b →
    decode ⟨s.endLen, b.ending⟩ b.word = .reject r → step s = .refused (.undecodable r)

/-- R213 to R215: when the host presents nothing and the sequencer stands at an operation of the table, the step is that operation's
execution, after which only the sequencer's place (`phase`, and `sub` after SEG.PAGE) moves on. That one step is one operation,
with `sub` set to 1 in the step of SEG.PAGE, is the model's choice (log 1, DESIGN CHOICE). -/
def Obligations.StepRunsTheSequencedOperation : Prop :=
  ∀ (s : State) (i : Instr), s.inputs = [] → s.nextOp = some i →
    (∀ u, exec i s = .next u →
      ∃ p, step s = .next { u with phase := p, sub := if s.phase = .segPage then 1 else u.sub }) ∧
    (∀ r, exec i s = .fault r → step s = .fault r) ∧
    (∀ r, exec i s ≠ .refused r)

/-! ## The checksum engine -/

/-- R121, R122, R123: CRC.INIT, CRC.BYTE and CRC.FIN, the last two on a register that a CRC.INIT has specified. -/
def Obligations.ChecksumOperations : Prop :=
  ∀ (s : State) (d : Byte),
    exec .crcInit s = .next { s with crcReg := 0xFFFFFFFF, crcInit := true } ∧
    (s.crcInit = true →
      exec (.crcByte d) s = .next { s with
        crcReg := Nat.iterate (fun r : Word => if r.getLsbD 0 then (r >>> 1) ^^^ 0xEDB88320 else r >>> 1) 8
          (s.crcReg ^^^ d.setWidth 32) } ∧
      exec .crcFin s = .next { s with result := .word (s.crcReg ^^^ 0xFFFFFFFF) })

/-- R30, on a register no CRC.INIT has specified since reset: CRC.BYTE and CRC.FIN complete with some value, whichever, and touch
nothing else but the model's counter of free values (log 7). -/
def Obligations.UnspecifiedChecksumIsAnyValue : Prop :=
  ∀ (s : State) (d : Byte), s.crcInit = false →
    (∃ w, exec (.crcByte d) s = .next { s with crcReg := w, free := s.free + 1 }) ∧
    (∃ w, exec .crcFin s = .next { s with result := .word w, free := s.free + 1 })

/-- R124: CRC.SPAN is CRC.INIT, CRC.BYTE of each byte in index order, CRC.FIN; its result depends on the bytes alone; of no bytes
it returns 0. -/
def Obligations.SpanIsItsExpansion : Prop :=
  ∀ b : List Byte,
    (∃ r, ∀ s : State, exec (.crcSpan b) s = .next { s with crcReg := r, crcInit := true, result := .word (r ^^^ 0xFFFFFFFF) }) ∧
    (∀ s : State, runOps (.crcInit :: (b.map .crcByte ++ [.crcFin])) s = exec (.crcSpan b) s) ∧
    (∀ s : State, exec (.crcSpan []) s = .next { s with crcReg := 0xFFFFFFFF, crcInit := true, result := .word 0 })

/-- R125: the table-driven and the bit-serial form of the byte step equal R122's. -/
def Obligations.ByteStepFormsAgree : Prop :=
  ∀ (r : Word) (d : Byte),
    crcUpdate r d = (r >>> 8) ^^^ crcUpdate 0 ((r ^^^ d.setWidth 32).extractLsb' 0 8) ∧
    crcUpdate r d = (List.range 8).foldl
      (fun (r : Word) (j : Nat) => (r >>> 1) ^^^ (if (r.getLsbD 0 ^^ d.getLsbD j) then (0xEDB88320 : Word) else 0)) r

/-- R127 (a), for every message: appending the checksum little-endian and checksumming the whole gives 0x2144DF1C. -/
def Obligations.ChecksumResidue : Prop :=
  ∀ m : List Byte, checksum (m ++ le32 (checksum m)) = 0x2144DF1C

/-! ## The encoders and the host frames -/

/-- R141, R143 (and R140): ENC.START and ENC.END write their ten bytes and `tx_len`, the rest of `tx_buf` and of the state stays. -/
def Obligations.StartAndEndEncoders : Prop :=
  ∀ s : State,
    (∃ t, exec .encStart s = .next t ∧ t = { s with txBuf := t.txBuf, txLen := 10 } ∧
      t.txBuf.toList = [0xA5, 0xA5, 0xC0 ||| s.slot.setWidth 8, 0x00, (if s.plane = 1 then 0x10 else 0x00) ||| s.slot.setWidth 8,
        0x00, 0xAF, 0xAF, 0xA5, 0xA5] ++ s.txBuf.toList.drop 10) ∧
    (∃ t, exec .encEnd s = .next t ∧ t = { s with txBuf := t.txBuf, txLen := 10 } ∧
      t.txBuf.toList = [0xA5, 0xA5, 0xC1 ||| s.slot.setWidth 8, 0x00, s.slot.setWidth 8,
        0x00, 0xAF, 0xAF, 0xA5, 0xA5] ++ s.txBuf.toList.drop 10)

/-- R142 with R85: ENC.DATA, for the payloads SEG.SUB returns (54 or 36 bytes), writes the 64 bytes of R85's expression. -/
def Obligations.DataEncoder : Prop :=
  ∀ (s : State) (p : List Byte), p.length = 54 ∨ p.length = 36 →
    ∃ t, exec (.encData p) s = .next t ∧ t = { s with txBuf := t.txBuf, txLen := 64 } ∧
      t.txBuf.toList = le16 0xA5A5 ++ le16 0x00D0 ++
        [(if s.plane = 1 then 0x10 else 0x00) ||| s.slot.setWidth 8, s.page.setWidth 8, s.sub.setWidth 8, 0x00] ++
        (p ++ List.replicate (56 - p.length) 0x00).take 52 ++ le32 0xA5A5AFAF

/-- R84, R92: payload bytes 52 and 53 of sub-frames 1 to 4 do not reach the frame; in sub-frame 5 the checksum stands at offsets
40 to 43, least significant byte first, and offsets 44 to 59 are zero. -/
def Obligations.EndMarkerOverwritesPayload : Prop :=
  (∀ (q : Plane) (sl : Slot) (p : Page) (k : Sub) (x y : List Byte), x.length = 54 → y.length = 54 → x.take 52 = y.take 52 →
    dataWrites q sl p k x = dataWrites q sl p k y) ∧
  (∀ (q : Plane) (sl : Slot) (p : Page) (d : List Byte) (w : Word), d.length = 32 →
    ((dataWrites q sl p 5 (d ++ le32 w)).drop 8).take 52 = d ++ le32 w ++ List.replicate 16 0x00)

/-- The host frames' rows (R82 to R84; what a row does is log 11): the frame stands in `tx_buf`, nothing else changes. -/
def Obligations.HostFrameRows : Prop :=
  ∀ (s : State) (q : Plane) (sl : Slot) (p : Page) (k : Sub) (r : List Byte),
    (∃ t, exec (.start q sl) s = .next t ∧ t = { s with txBuf := t.txBuf, txLen := 10 } ∧
      t.txBuf.toList = startFrame q sl ++ s.txBuf.toList.drop 10) ∧
    (∃ t, exec (.endFrame sl) s = .next t ∧ t = { s with txBuf := t.txBuf, txLen := 10 } ∧
      t.txBuf.toList = endFrameBytes sl ++ s.txBuf.toList.drop 10) ∧
    ((Instr.data q sl p k r).wf = true →
      ∃ t, exec (.data q sl p k r) s = .next t ∧ t = { s with txBuf := t.txBuf, txLen := 64 } ∧
        t.txBuf.toList = [0xA5, 0xA5, 0xD0, 0x00, (if q = 1 then 0x10 else 0x00) ||| sl.setWidth 8, p.setWidth 8, k.setWidth 8, 0x00]
          ++ r ++ [0xAF, 0xAF, 0xA5, 0xA5])

/-- R144, R145, R146: the reference reply encoders return their bytes and touch nothing of the block. -/
def Obligations.ReferenceEncoders : Prop :=
  ∀ (s : State) (c sl : Half) (st r p : Byte),
    exec (.refSreply c st r) s = .next { s with
      result := .bytes [0x5A, 0x5A, c.extractLsb' 0 8, c.extractLsb' 8 8, st, r, 0x5F, 0x5F, 0x5A, 0x5A] } ∧
    exec (.refDreply c p st) s = .next { s with
      result := .bytes [0x5A, 0x5A, c.extractLsb' 0 8, c.extractLsb' 8 8, p, st] } ∧
    (s.endLen = .eight → exec (.refEreply c sl) s = .next { s with
      result := .bytes [0x5A, 0x5A, c.extractLsb' 0 8, c.extractLsb' 8 8, 0x5F, 0x5F, 0x5A, 0x5A] }) ∧
    (s.endLen = .ten → exec (.refEreply c sl) s = .next { s with
      result := .bytes [0x5A, 0x5A, c.extractLsb' 0 8, c.extractLsb' 8 8, sl.extractLsb' 0 8, sl.extractLsb' 8 8, 0x5F, 0x5F, 0x5A, 0x5A] })

/-! ## The decoders and classifiers -/

/-- R161 (and R160, R167): DEC.SREPLY on every byte sequence. -/
def Obligations.StartReplyDecoder : Prop :=
  ∀ (s : State) (b : List Byte),
    (b.length ≠ 10 → exec (.decSreply b) s = .next { s with result := .startReply (.err .length) }) ∧
    (b.length = 10 → b.take 2 ≠ [0x5A, 0x5A] → exec (.decSreply b) s = .next { s with result := .startReply (.err .magic) }) ∧
    (b.length = 10 → b.take 2 = [0x5A, 0x5A] → b.drop 6 ≠ [0x5F, 0x5F, 0x5A, 0x5A] →
      exec (.decSreply b) s = .next { s with result := .startReply (.err .endMarker) }) ∧
    (∀ c0 c1 st r, b = [0x5A, 0x5A, c0, c1, st, r, 0x5F, 0x5F, 0x5A, 0x5A] →
      exec (.decSreply b) s = .next { s with
        lastCmd16 := c1 ++ c0, lastStatus := st, result := .startReply (.ok ⟨c1 ++ c0, st, r⟩) })

/-- R162 (and R160, R167): DEC.DREPLY on every byte sequence; no end-marker, the page is not compared. -/
def Obligations.DataReplyDecoder : Prop :=
  ∀ (s : State) (b : List Byte),
    (b.length ≠ 6 → exec (.decDreply b) s = .next { s with result := .dataReply (.err .length) }) ∧
    (b.length = 6 → b.take 2 ≠ [0x5A, 0x5A] → exec (.decDreply b) s = .next { s with result := .dataReply (.err .magic) }) ∧
    (∀ c0 c1 p st, b = [0x5A, 0x5A, c0, c1, p, st] →
      exec (.decDreply b) s = .next { s with
        lastCmd16 := c1 ++ c0, lastPage := p, lastStatus := st, result := .dataReply (.ok ⟨c1 ++ c0, p, st⟩) })

/-- R163 (and R160, R167): DEC.EREPLY on every byte sequence, for both lengths; `last_status` stays. -/
def Obligations.EndReplyDecoder : Prop :=
  ∀ (s : State) (b : List Byte),
    (b.length ≠ s.endLen.bytes → exec (.decEreply b) s = .next { s with result := .endReply (.err .length) }) ∧
    (b.length = s.endLen.bytes → b.take 2 ≠ [0x5A, 0x5A] →
      exec (.decEreply b) s = .next { s with result := .endReply (.err .magic) }) ∧
    (b.length = s.endLen.bytes → b.take 2 = [0x5A, 0x5A] → b.drop (s.endLen.bytes - 4) ≠ [0x5F, 0x5F, 0x5A, 0x5A] →
      exec (.decEreply b) s = .next { s with result := .endReply (.err .endMarker) }) ∧
    (∀ c0 c1, s.endLen = .eight → b = [0x5A, 0x5A, c0, c1, 0x5F, 0x5F, 0x5A, 0x5A] →
      exec (.decEreply b) s = .next { s with
        lastCmd16 := c1 ++ c0, lastSlot16 := 0x5F5F, result := .endReply (.ok ⟨c1 ++ c0, 0x5F5F⟩) }) ∧
    (∀ c0 c1 l h, s.endLen = .ten → b = [0x5A, 0x5A, c0, c1, l, h, 0x5F, 0x5F, 0x5A, 0x5A] →
      exec (.decEreply b) s = .next { s with
        lastCmd16 := c1 ++ c0, lastSlot16 := h ++ l, result := .endReply (.ok ⟨c1 ++ c0, h ++ l⟩) })

/-- R147: a reply encoded by the reference encoder decodes to its fields, `slot16` only when the length is 10. -/
def Obligations.ReplyRoundTrip : Prop :=
  ∀ (s : State) (c sl : Half) (st r p : Byte),
    (∃ b, exec (.refSreply c st r) s = .next { s with result := .bytes b } ∧
      exec (.decSreply b) s = .next { s with lastCmd16 := c, lastStatus := st, result := .startReply (.ok ⟨c, st, r⟩) }) ∧
    (∃ b, exec (.refDreply c p st) s = .next { s with result := .bytes b } ∧
      exec (.decDreply b) s = .next { s with
        lastCmd16 := c, lastPage := p, lastStatus := st, result := .dataReply (.ok ⟨c, p, st⟩) }) ∧
    (∃ b, exec (.refEreply c sl) s = .next { s with result := .bytes b } ∧
      (s.endLen = .ten →
        exec (.decEreply b) s = .next { s with lastCmd16 := c, lastSlot16 := sl, result := .endReply (.ok ⟨c, sl⟩) }) ∧
      (s.endLen = .eight →
        exec (.decEreply b) s = .next { s with lastCmd16 := c, lastSlot16 := 0x5F5F, result := .endReply (.ok ⟨c, 0x5F5F⟩) }))

/-- R164, R165 (and R94, R95): the class of every status byte; nothing of the block changes. -/
def Obligations.StatusClassifiers : Prop :=
  ∀ (s : State) (st : Byte),
    (∃ k, exec (.clsStart st) s = .next { s with result := .startClass k } ∧
      (st = 0x01 → k = .ok) ∧ (st = 0x02 → k = .busy) ∧ (st = 0xFF → k = .error) ∧
      (st ≠ 0x01 → st ≠ 0x02 → st ≠ 0xFF → k = .unrecognized st)) ∧
    (∃ k, exec (.clsData st) s = .next { s with result := .dataClass k } ∧
      (st.toNat = 0 → k = .ok) ∧
      (1 ≤ st.toNat → st.toNat ≤ 0x0F → k = .unknown st) ∧
      (0x10 ≤ st.toNat → st.toNat ≤ 0x1F → k = .crcFamily st) ∧
      (0x20 ≤ st.toNat → st.toNat ≤ 0x2F → ∃ n, k = .missing n ∧ n.toNat = st.toNat - 0x20) ∧
      (st.toNat = 0x30 → k = .timeout) ∧
      (0x31 ≤ st.toNat → k = .unknown st))

/-- The reply frames' rows (R86, R87; what a row does is log 11): the frame's bytes are decoded as its decoder rule says, and nothing
else changes. -/
def Obligations.ReplyFrameRows : Prop :=
  ∀ (s : State) (c sl : Half) (st r p : Byte),
    exec (.startReply c st r) s = .next { s with
      lastCmd16 := c, lastStatus := st, result := .startReply (.ok ⟨c, st, r⟩) } ∧
    exec (.startReply c st r) s = exec (.decSreply (startReplyFrame c st r)) s ∧
    exec (.dataReply c p st) s = .next { s with
      lastCmd16 := c, lastPage := p, lastStatus := st, result := .dataReply (.ok ⟨c, p, st⟩) } ∧
    exec (.dataReply c p st) s = exec (.decDreply (dataReplyFrame c p st)) s ∧
    (∃ x, x = (match s.endLen with | .eight => 0x5F5F | .ten => sl) ∧
      exec (.endReply c sl) s = .next { s with
        lastCmd16 := c, lastSlot16 := x, result := .endReply (.ok ⟨c, x⟩) }) ∧
    exec (.endReply c sl) s = exec (.decEreply (endReplyFrame s.endLen c sl)) s

/-! ## The segmenter -/

/-- R191 (and R52): SEG.PAGE reads the page's bytes from the image, pads with zeros to 248, notes their count and their checksum;
the checksum engine is left at the register before the complement. -/
def Obligations.PageSegmenter : Prop :=
  ∀ (s : State) (q : Plane) (p : Page), 1 ≤ p.toNat → p.toNat ≤ 61 →
    ∃ t, exec (.segPage q p) s = .next t ∧
      t = { s with pageBuf := t.pageBuf, pageLen := t.pageLen, pageCrc := t.pageCrc, crcReg := ~~~ t.pageCrc, crcInit := true } ∧
      t.pageLen.toNat = (if p.toNat ≤ 60 then 248 else 120) ∧
      (∀ i, i < t.pageLen.toNat →
        (p.toNat - 1) * 248 + i < 15000 ∧ t.pageBuf.toList[i]? = some (imgRead s.img q ((p.toNat - 1) * 248 + i))) ∧
      (∀ i, t.pageLen.toNat ≤ i → i < 248 → t.pageBuf.toList[i]? = some 0x00) ∧
      t.pageCrc = checksum (t.pageBuf.toList.take t.pageLen.toNat)

/-- R192: SEG.SUB returns 54 bytes of the page buffer, or for sub-frame 5 its last 32 bytes and the page checksum. -/
def Obligations.SubFrameSegmenter : Prop :=
  ∀ (s : State) (k : Sub), 1 ≤ k.toNat → k.toNat ≤ 5 →
    ∃ b, exec (.segSub k) s = .next { s with result := .bytes b } ∧
      (k.toNat ≤ 4 → b = (s.pageBuf.toList.drop ((k.toNat - 1) * 54)).take 54 ∧ b.length = 54) ∧
      (k.toNat = 5 → b = s.pageBuf.toList.drop 216 ++ le32 s.pageCrc ∧ b.length = 36)

/-- Outside the ranges R52 and R192 give, the segmenter stops by name, and so does a page attempt of such a page (log 17). -/
def Obligations.SegmenterStopsOutOfRange : Prop :=
  ∀ (s : State) (q : Plane) (p : Page) (k : Sub),
    (p.toNat = 0 ∨ 61 < p.toNat → exec (.segPage q p) s = .fault (.pageRange p)) ∧
    (k.toNat = 0 ∨ 5 < k.toNat → exec (.segSub k) s = .fault (.subRange k)) ∧
    (s.page.toNat = 0 ∨ 61 < s.page.toNat →
      exec .stepPage s = .fault (.pageRange s.page) ∧ exec (.retry .page) s = .fault (.pageRange s.page))

/-- R194: the meaningful bytes of the payloads of the 61 pages, put together, are the 15000 bytes of the plane. -/
def Obligations.PagesReassembleThePlane : Prop :=
  ∀ (s : State) (q : Plane),
    let payload := fun (p : Nat) (k : Sub) => bytesOf (runOps [.segPage q (BitVec.ofNat 6 p), .segSub k] s)
    let page := fun p => payload p 1 ++ payload p 2 ++ payload p 3 ++ payload p 4 ++ (payload p 5).take 32
    ((List.range 60).flatMap fun i => page (i + 1)) ++ (page 61).take 120 = (List.range 15000).map (imgRead s.img q)

/-! ## The host command and reset -/

/-- R210 (and R267): an accepted SEND masks the slot, clears report, last-reply registers and `last_cause`, and begins the session
at plane 0's start step; operands with the same low nibble do the same. That RUN's first attempt has begun when SEND returns, and
its events follow step by step, is the model's (log 15). -/
def Obligations.SendOpensASession : Prop :=
  ∀ (s : State) (o : Byte), s.fsm = .idle ∨ s.fsm = .done ∨ s.fsm = .failed →
    exec (.send o) s = .next { s with
      slot := (o &&& 0x0F).setWidth 4
      failStep := .none, failPlane := 0, failPage := 0, failCause := .none, lastCause := .none
      lastCmd16 := 0, lastStatus := 0, lastPage := 0, lastSlot16 := 0
      fsm := .starting, plane := 0, page := 0, sub := 0, attempt := 1
      phase := .enc [], body := .start, scope := .run } ∧
    ∀ o', o' &&& 0x0F = o &&& 0x0F → exec (.send o') s = exec (.send o) s

/-- R223: SEND while a session runs does not change `slot`, does not restart, does not queue. -/
def Obligations.SendWhileBusyDoesNothing : Prop :=
  ∀ (s : State) (o : Byte), s.fsm = .starting ∨ s.fsm = .sendingPage ∨ s.fsm = .ending →
    exec (.send o) s = .next s ∧
    ∀ rest, s.inputs = ⟨false, some o⟩ :: rest → step s = .next { s with inputs := rest }

/-- R290, R39, R291, R30: RESET in any state gives every register its reset value, makes `crc_reg` unspecified again, emits no event,
and leaves nothing running. That the image, the configuration and the trace already emitted are kept is the model's choice
(log 9, DESIGN CHOICE); that `crc_reg` is marked unspecified is the form of log 7. -/
def Obligations.ResetGivesTheResetValues : Prop :=
  ∀ s : State, ∃ t, exec .reset s = .next t ∧
    t.fsm = .idle ∧ t.plane = 0 ∧ t.page = 0 ∧ t.sub = 0 ∧ t.attempt = 0 ∧ t.slot = 0 ∧ t.rxLen = 0 ∧
    t.busy = false ∧ t.isDone = false ∧ t.isFailed = false ∧
    t.failStep = .none ∧ t.failPlane = 0 ∧ t.failPage = 0 ∧ t.failCause = .none ∧ t.lastCause = .none ∧
    t.lastCmd16 = 0 ∧ t.lastStatus = 0 ∧ t.lastPage = 0 ∧ t.lastSlot16 = 0 ∧
    t.crcInit = false ∧ t.phase = .idle ∧ t.trace = s.trace ∧ SameImage s t

/-- R265: a SEND and a reset presented together: reset wins, and the command is gone. -/
def Obligations.ResetWinsOverSend : Prop :=
  ∀ (s : State) (c : Option Byte) (rest : List Input), s.inputs = ⟨true, c⟩ :: rest →
    step s = exec .reset { s with inputs := rest } ∧ ∃ t, step s = .next t ∧ t.fsm = .idle ∧ t.slot = 0 ∧ t.inputs = rest

/-! ## The step bodies -/

/-- R213: an attempt of the start step, whose Tx is answered and whose Rx answers at most the 10 bytes asked (R13), sends the START
frame, asks for 10 bytes, and its verdict is the reply's; on BUSY one elapsed unit is waited for first. A failed Tx ends it at
once. -/
def Obligations.StartAttempt : Prop :=
  (∀ (s : State) (ta : List TxAnswer) (a : RxAnswer) (ra : List RxAnswer),
    s.txAns = .ok :: ta → s.rxAns = a :: ra → (∀ b, a = .bytes b → b.length ≤ 10) →
    (startVerdict a = .retry .startBusy → s.ticks ≠ 0) →
    ∃ t, exec .stepStart s = .next t ∧ t.phase = .idle ∧ t.result = .attempt (startVerdict a) ∧
      t.trace = s.trace ++ [.tx (startFrame s.plane s.slot) .ok, .rx 10 a]
        ++ (if startVerdict a = .retry .startBusy then [.waitUnit] else []) ∧
      t.txAns = ta ∧ t.rxAns = ra ∧
      t.ticks = (if startVerdict a = .retry .startBusy then s.ticks - 1 else s.ticks) ∧
      SameReply (match a with | .bytes b => s.noteStartReply (startReplyOf b) | .err => s) t ∧
      t.txFrame = startFrame s.plane s.slot ∧ t.rxBytes = (match a with | .bytes b => b | .err => []) ∧
      t.sub = s.sub ∧ t.lastCause = s.lastCause ∧ t.inputs = s.inputs ∧ t.bench = s.bench ∧
      SamePosition s t ∧ SamePage s t ∧ SameReport s t ∧ SameImage s t) ∧
  (∀ (s : State) (ta : List TxAnswer), s.txAns = .err :: ta →
    ∃ t, exec .stepStart s = .next t ∧ t.phase = .idle ∧ t.result = .attempt (.retry .transport) ∧
      t.trace = s.trace ++ [.tx (startFrame s.plane s.slot) .err] ∧ t.txAns = ta ∧ t.rxAns = s.rxAns ∧ t.ticks = s.ticks ∧
      t.sub = s.sub ∧ t.lastCause = s.lastCause ∧ t.inputs = s.inputs ∧ t.bench = s.bench ∧ t.rxBuf = s.rxBuf ∧ t.rxLen = s.rxLen ∧
      SamePosition s t ∧ SamePage s t ∧ SameReport s t ∧ SameReply s t ∧ SameImage s t)

/-- R214: an attempt of a page sends its five sub-frames in order, then asks for 6 bytes (the Rx answers at most those, R13), and its
verdict is the reply's. When the Tx of sub-frame `j + 1` fails, the later sub-frames are not sent and no reply is awaited. -/
def Obligations.PageAttempt : Prop :=
  (∀ (s : State) (ta : List TxAnswer) (a : RxAnswer) (ra : List RxAnswer), 1 ≤ s.page.toNat → s.page.toNat ≤ 61 →
    s.txAns = [.ok, .ok, .ok, .ok, .ok] ++ ta → s.rxAns = a :: ra →
    (∀ b, a = .bytes b → b.length ≤ 6) →
    ∃ t, exec .stepPage s = .next t ∧ t.phase = .idle ∧ t.result = .attempt (pageVerdict a) ∧
      t.trace = s.trace ++ (pageFrames s.img s.slot s.plane s.page).map (fun f => .tx f .ok) ++ [.rx 6 a] ∧
      t.txAns = ta ∧ t.rxAns = ra ∧ t.ticks = s.ticks ∧ t.sub = 0 ∧
      t.pageBuf.toList = pageImage s.img s.plane s.page ∧ t.pageCrc = checksum (pageData s.img s.plane s.page) ∧
      t.pageLen.toNat = (if s.page.toNat ≤ 60 then 248 else 120) ∧ t.crcReg = ~~~ t.pageCrc ∧ t.crcInit = true ∧
      some t.txFrame = (pageFrames s.img s.slot s.plane s.page)[4]? ∧
      t.rxBytes = (match a with | .bytes b => b | .err => []) ∧
      SameReply (match a with | .bytes b => s.noteDataReply (dataReplyOf b) | .err => s) t ∧
      t.lastCause = s.lastCause ∧ t.inputs = s.inputs ∧ t.bench = s.bench ∧ SamePosition s t ∧ SameReport s t ∧ SameImage s t) ∧
  (∀ (s : State) (j : Nat) (ta : List TxAnswer), 1 ≤ s.page.toNat → s.page.toNat ≤ 61 → j < 5 →
    s.txAns = List.replicate j .ok ++ .err :: ta →
    ∃ t, exec .stepPage s = .next t ∧ t.phase = .idle ∧ t.result = .attempt (.retry .transport) ∧
      t.trace = s.trace ++ ((pageFrames s.img s.slot s.plane s.page).take j).map (fun f => .tx f .ok)
        ++ (((pageFrames s.img s.slot s.plane s.page).drop j).take 1).map (fun f => .tx f .err) ∧
      t.txAns = ta ∧ t.rxAns = s.rxAns ∧ t.ticks = s.ticks ∧ t.sub = 0 ∧ t.lastCause = s.lastCause ∧ t.inputs = s.inputs ∧ t.bench = s.bench ∧
      some t.txFrame = (pageFrames s.img s.slot s.plane s.page)[j]? ∧ t.rxBuf = s.rxBuf ∧ t.rxLen = s.rxLen ∧
      SamePosition s t ∧ SameReport s t ∧ SameReply s t ∧ SameImage s t)

/-- R215: an attempt of the end step sends the END frame, asks for `LEN_END_REPLY` bytes (the Rx answers at
most those, R13), and any reply that decodes is success. A failed Tx ends it at once. -/
def Obligations.EndAttempt : Prop :=
  (∀ (s : State) (ta : List TxAnswer) (a : RxAnswer) (ra : List RxAnswer),
    s.txAns = .ok :: ta → s.rxAns = a :: ra → (∀ b, a = .bytes b → b.length ≤ s.endLen.bytes) →
    ∃ t, exec .stepEnd s = .next t ∧ t.phase = .idle ∧ t.result = .attempt (endVerdict s.endLen a) ∧
      t.trace = s.trace ++ [.tx (endFrameBytes s.slot) .ok, .rx s.endLen.bytes a] ∧
      t.txAns = ta ∧ t.rxAns = ra ∧ t.ticks = s.ticks ∧
      SameReply (match a with | .bytes b => s.noteEndReply (endReplyOf s.endLen b) | .err => s) t ∧
      t.txFrame = endFrameBytes s.slot ∧ t.rxBytes = (match a with | .bytes b => b | .err => []) ∧
      t.sub = s.sub ∧ t.lastCause = s.lastCause ∧ t.inputs = s.inputs ∧ t.bench = s.bench ∧
      SamePosition s t ∧ SamePage s t ∧ SameReport s t ∧ SameImage s t) ∧
  (∀ (s : State) (ta : List TxAnswer), s.txAns = .err :: ta →
    ∃ t, exec .stepEnd s = .next t ∧ t.phase = .idle ∧ t.result = .attempt (.retry .transport) ∧
      t.trace = s.trace ++ [.tx (endFrameBytes s.slot) .err] ∧ t.txAns = ta ∧ t.rxAns = s.rxAns ∧ t.ticks = s.ticks ∧
      t.sub = s.sub ∧ t.lastCause = s.lastCause ∧ t.inputs = s.inputs ∧ t.bench = s.bench ∧ t.rxBuf = s.rxBuf ∧ t.rxLen = s.rxLen ∧
      SamePosition s t ∧ SamePage s t ∧ SameReport s t ∧ SameReply s t ∧ SameImage s t)

/-! ## RETRY and RUN -/

/-- R212 (and R260, R265): RETRY stops at the first success or at the third failure; `attempt` counts, `last_cause` holds the last
verdict. Each of the three attempts is answered in any way: a failed Tx of any of its frames, which costs exactly one attempt and
asks for no reply, or any reply. The answers of attempts not made are not used. -/
def Obligations.RetryFollowsTheVerdicts : Prop :=
  ∀ (s : State) (b : Body) (e1 e2 e3 : Exchange) (ta : List TxAnswer) (ra : List RxAnswer),
    e1.fits b = true → e2.fits b = true → e3.fits b = true → 3 ≤ s.ticks →
    s.txAns = e1.txUsed b ++ (e2.txUsed b ++ (e3.txUsed b ++ ta)) → s.rxAns = e1.rxUsed ++ (e2.rxUsed ++ (e3.rxUsed ++ ra)) →
    (b = .page → 1 ≤ s.page.toNat ∧ s.page.toNat ≤ 61) →
    ∃ t, exec (.retry b) s = .next t ∧ t.phase = .idle ∧
      t.fsm = s.fsm ∧ t.plane = s.plane ∧ t.page = s.page ∧ t.slot = s.slot ∧ t.inputs = s.inputs ∧ t.bench = s.bench ∧ SameReport s t ∧ SameImage s t ∧
      (b = .page → t.sub = 0) ∧ (b ≠ .page → t.sub = s.sub ∧ SamePage s t) ∧
      match e1.verdict s.endLen b, e2.verdict s.endLen b, e3.verdict s.endLen b with
      | .success, _, _ => t.result = .step .ok ∧ t.attempt = 1 ∧ t.lastCause = .none ∧
          t.txAns = e2.txUsed b ++ (e3.txUsed b ++ ta) ∧ t.rxAns = e2.rxUsed ++ (e3.rxUsed ++ ra)
      | .retry _, .success, _ => t.result = .step .ok ∧ t.attempt = 2 ∧ t.lastCause = .none ∧
          t.txAns = e3.txUsed b ++ ta ∧ t.rxAns = e3.rxUsed ++ ra
      | .retry _, .retry _, .success => t.result = .step .ok ∧ t.attempt = 3 ∧ t.lastCause = .none ∧ t.txAns = ta ∧ t.rxAns = ra
      | .retry _, .retry _, .retry c => t.result = .step (.failed c) ∧ t.attempt = 3 ∧ t.lastCause = c ∧ t.txAns = ta ∧ t.rxAns = ra

/-- R220 with R212: a device that always answers BUSY: three frames, three receives, three waits, the third before the failure. -/
def Obligations.BusyWaitsThreeTimes : Prop :=
  ∀ (s : State) (a1 a2 a3 : RxAnswer) (ra : List RxAnswer) (ta : List TxAnswer),
    s.txAns = .ok :: .ok :: .ok :: ta → s.rxAns = a1 :: a2 :: a3 :: ra → 3 ≤ s.ticks →
    (∀ a ∈ [a1, a2, a3], startVerdict (a.upTo 10) = .retry .startBusy) →
    ∃ t, exec (.retry .start) s = .next t ∧ t.result = .step (.failed .startBusy) ∧ t.attempt = 3 ∧
      t.lastStatus = 0x02 ∧ t.ticks = s.ticks - 3 ∧ t.txAns = ta ∧
      t.trace = s.trace ++ [a1, a2, a3].flatMap fun a =>
        [.tx (startFrame s.plane s.slot) .ok, .rx 10 (a.upTo 10), .waitUnit]

/-- R271, R297: the step bodies and RETRY, in every state whose page exists, end or wait for an answer of the environment: the
phases the model allots them (log 15) suffice. -/
def Obligations.StepsEndOrWait : Prop :=
  ∀ s : State,
    (∃ t, exec .stepStart s = .next t ∧ t.atRest = true) ∧
    (∃ t, exec .stepEnd s = .next t ∧ t.atRest = true) ∧
    (1 ≤ s.page.toNat → s.page.toNat ≤ 61 → ∃ t, exec .stepPage s = .next t ∧ t.atRest = true) ∧
    (∀ b, (b = .page → 1 ≤ s.page.toNat ∧ s.page.toNat ≤ 61) → ∃ t, exec (.retry b) s = .next t ∧ t.atRest = true)

/-- R216, R297: RUN, in every state, ends or waits for an answer of the environment; it never stops otherwise. That RUN executed as
one operation answers a state that waits, and that the 7625 phases allotted to it suffice, is log 15 (DESIGN CHOICE). -/
def Obligations.RunEndsOrWaits : Prop :=
  ∀ s : State, ∃ t, exec .run s = .next t ∧ t.atRest = true

/-- R224, R297: if the environment answers 1839 sends, 375 receives and 6 waits, the session ends in DONE or FAILED, within those
numbers, and its last event is the terminal one. -/
def Obligations.AnsweredSessionsTerminate : Prop :=
  ∀ s : State, 1839 ≤ s.txAns.length → 375 ≤ s.rxAns.length → 6 ≤ s.ticks →
    ∃ t x, exec .run s = .next t ∧ t.phase = .idle ∧
      ((t.fsm = .done ∧ x = .done) ∨ (t.fsm = .failed ∧ x = .failed t.failStep t.failPlane t.failPage t.failCause)) ∧
      (∃ evs, t.trace = s.trace ++ evs ++ [.terminal x] ∧ ∀ y, Event.terminal y ∉ evs) ∧
      s.txAns.length ≤ t.txAns.length + 1839 ∧ s.rxAns.length ≤ t.rxAns.length + 375 ∧ s.ticks ≤ t.ticks + 6

/-- R216, R63, R224: if every attempt succeeds at once, the session sends exactly START, 61 pages of five sub-frames, START, 61
pages, END, in this order, with 613 sends, 125 receives, 39070 bytes sent, 752 + `LEN_END_REPLY` bytes asked, and ends in DONE. -/
def Obligations.CleanSessionSendsTheWholeImage : Prop :=
  ∀ (s : State) (ta : List TxAnswer) (a0 a1 a2 : RxAnswer) (as0 as1 ra : List RxAnswer),
    s.txAns = List.replicate 613 .ok ++ ta → s.rxAns = a0 :: as0 ++ a1 :: as1 ++ a2 :: ra →
    as0.length = 61 → as1.length = 61 →
    startVerdict (a0.upTo 10) = .success → startVerdict (a1.upTo 10) = .success →
    endVerdict s.endLen (a2.upTo s.endLen.bytes) = .success →
    (∀ a ∈ as0 ++ as1, pageVerdict (a.upTo 6) = .success) →
    ∃ t evs, exec .run s = .next t ∧ t.fsm = .done ∧ t.plane = 1 ∧ t.page = 0 ∧ t.attempt = 1 ∧ t.phase = .idle ∧
      t.slot = s.slot ∧ t.lastCause = .none ∧ SameReport s t ∧ SameImage s t ∧ t.txAns = ta ∧ t.rxAns = ra ∧ t.ticks = s.ticks ∧
      t.trace = s.trace ++ evs ++ [.terminal .done] ∧ framesSent evs = sessionFrames s.img s.slot ∧
      tally evs = ⟨613, 125, 0, 39070, 752 + s.endLen.bytes⟩

/-- R222, R216: the phases add no behaviour: RUN's effect is that of the machine's steps taken one after another while the host
presents nothing, from the state RUN begins in. -/
def Obligations.RunIsItsSteps : Prop :=
  ∀ s t : State, s.inputs = [] → exec .run s = .next t →
    ∃ k, k ≤ runPhases ∧ Host.Core.run Sys2Proof.core k (s.enterPlane 0) = .next t

/-! ## The whole machine -/

/-- R219, R266: FAILED is entered only when the third attempt of a step failed; the report names the step, its plane and page and
the cause, `Failed` is emitted, and nothing else changes. -/
def Obligations.FailedIsEnteredOneWay : Prop :=
  ∀ s t : State, Inv s → s.fsm ≠ .failed → step s = .next t → t.fsm = .failed →
    ∃ (c : Cause) (fs : FailStep) (q : Plane) (p : Page),
      s.phase = .ret (.failed c) ∧ s.attempt = 3 ∧ s.lastCause = c ∧
      ((s.fsm = .starting ∧ fs = .start ∧ q = s.plane ∧ p = 0) ∨ (s.fsm = .sendingPage ∧ fs = .page ∧ q = s.plane ∧ p = s.page) ∨
        (s.fsm = .ending ∧ fs = .finish ∧ q = 0 ∧ p = 0)) ∧
      t = { s with
        failStep := fs, failPlane := q, failPage := p, failCause := c, fsm := .failed, phase := .idle
        result := .terminal (.failed fs q p c), trace := s.trace ++ [.terminal (.failed fs q p c)], inputs := t.inputs }

/-- R264, R218, R291: a session is left only by `Done`, by `Failed`, or by reset, which emits nothing. -/
def Obligations.SessionsEndInThreeWays : Prop :=
  ∀ s t : State, Inv s → s.busy = true → step s = .next t → t.busy = false →
    (∃ inp rest, s.inputs = inp :: rest ∧ inp.rst = true ∧ t.fsm = .idle ∧ t.trace = s.trace) ∨
    (s.fsm = .ending ∧ s.phase = .ret .ok ∧ t.fsm = .done ∧ t.failStep = .none ∧ t.attempt = s.attempt ∧
      t.trace = s.trace ++ [.terminal .done]) ∨
    (∃ c fs q p, s.phase = .ret (.failed c) ∧ t.fsm = .failed ∧ t.trace = s.trace ++ [.terminal (.failed fs q p c)])

/-- R22, R267, R290: outside a session a step without reset, command and bench word changes nothing but the list of inputs it uses up.
A frame on the test bench (log 11, log 29) moves only `tx_buf`, `tx_len`, the last-reply registers and the returned value. -/
def Obligations.IdleStatesAreSticky : Prop :=
  ∀ s t : State, Inv s → s.busy = false → step s = .next t →
    s.pinUp = true ∨ (s.benchWord = none ∧ s.command ≠ none) ∨
    (s.benchWord = none ∧ t = { s with inputs := s.inputs.tail }) ∨
    (∃ b, s.benchWord = some b ∧ (b.word.length = 1 ∨
      t = { s with
        bench := none, txBuf := t.txBuf, txLen := t.txLen, lastCmd16 := t.lastCmd16, lastStatus := t.lastStatus
        lastPage := t.lastPage, lastSlot16 := t.lastSlot16, result := t.result }))

/-- R24, R216, R217, R26: while a session runs the position stays or moves to the next place of R216's order, and it moves only
when the step succeeded; the next step then begins with its first attempt. -/
def Obligations.PositionAdvancesInOrder : Prop :=
  ∀ s t : State, Inv s → s.busy = true → step s = .next t → t.busy = true →
    (t.fsm = s.fsm ∧ t.plane = s.plane ∧ t.page = s.page) ∨
    (s.phase = .ret .ok ∧ nextPlace s.fsm s.plane s.page = some (t.fsm, t.plane, t.page) ∧ t.attempt = 1 ∧ t.slot = s.slot ∧
      t.trace = s.trace)

/-- R50, R51, R59: no operation and no step writes the image store (every byte of it reads as before) or the configuration. -/
def Obligations.ImageIsNeverWritten : Prop :=
  (∀ (i : Instr) (s t : State), exec i s = .next t → SameImage s t ∧ ∀ q a, imgRead t.img q a = imgRead s.img q a) ∧
  (∀ s t : State, step s = .next t → SameImage s t)

/-- R27, R290: `slot` is written only by an accepted SEND, with the operand masked, and by RESET. -/
def Obligations.SlotIsWrittenBySendOnly : Prop :=
  ∀ (i : Instr) (s t : State), exec i s = .next t → t.slot ≠ s.slot →
    (∃ o, i = .send o ∧ s.busy = false ∧ t.slot.toNat = o.toNat % 16) ∨ (i = .reset ∧ t.slot = 0)

/-- R29, R35, R167: while the host presents nothing, the last-reply registers change only by a decode that returns Ok, to the
fields of that reply; a decode error changes none. -/
def Obligations.LastReplyIsWrittenByOkDecodesOnly : Prop :=
  ∀ s t : State, s.quiet → step s = .next t →
    SameReply s t ∨
    (s.phase = .dec ∧ s.body = .start ∧ ∃ f, startReplyOf s.rxBytes = .ok f ∧
      t.lastCmd16 = f.command16 ∧ t.lastStatus = f.status8 ∧ t.lastPage = s.lastPage ∧ t.lastSlot16 = s.lastSlot16) ∨
    (s.phase = .dec ∧ s.body = .page ∧ ∃ f, dataReplyOf s.rxBytes = .ok f ∧
      t.lastCmd16 = f.command16 ∧ t.lastStatus = f.status8 ∧ t.lastPage = f.page8 ∧ t.lastSlot16 = s.lastSlot16) ∨
    (s.phase = .dec ∧ s.body = .finish ∧ ∃ f, endReplyOf s.endLen s.rxBytes = .ok f ∧
      t.lastCmd16 = f.command16 ∧ t.lastStatus = s.lastStatus ∧ t.lastPage = s.lastPage ∧ t.lastSlot16 = f.slot16)

/-- R34: `last_cause` is written at the end of an attempt, to E_NONE or the cause, and by nothing else while the host presents
nothing; an accepted SEND and reset clear it. -/
def Obligations.LastCauseFollowsTheAttempt : Prop :=
  (∀ s t : State, Inv s → s.quiet → step s = .next t →
    (∀ r, s.phase = .judge r → t.lastCause = (match r with | .success => .none | .retry c => c)) ∧
    ((∀ r, s.phase ≠ .judge r) → t.lastCause = s.lastCause)) ∧
  (∀ s t : State, exec .reset s = .next t → t.lastCause = .none) ∧
  (∀ (s t : State) (o : Byte), s.busy = false → exec (.send o) s = .next t → t.lastCause = .none)

/-- R271, R297: an operation whose answer has not come holds the block where it is, all state retained. -/
def Obligations.UnansweredOperationsWait : Prop :=
  ∀ s : State, s.inputs = [] →
    (s.phase = .tx → s.txAns = [] → step s = .next s) ∧
    (s.phase = .rx → s.rxAns = [] → step s = .next s) ∧
    (s.phase = .backoff → s.ticks = 0 → step s = .next s)

/-- R33 (and R13): after `Rx(n)` `rx_len` is the number of bytes answered, at most `n`, and `rx_buf` holds them below it; after
RxErr `rx_len` is 0. An answer queued longer than `n` counts as its first `n` bytes (log 3). -/
def Obligations.ReceiveFillsRxBuf : Prop :=
  ∀ (s : State) (a : RxAnswer) (ra : List RxAnswer), s.inputs = [] → s.phase = .rx → s.rxAns = a :: ra →
    ∃ t, step s = .next t ∧
      t = { s with rxBuf := t.rxBuf, rxLen := t.rxLen, free := t.free, rxAns := ra, trace := t.trace, phase := t.phase } ∧
      (∀ b, a = .bytes b →
        t.rxLen.toNat = min b.length (replyBytes s.endLen s.body) ∧ t.rxBytes = b.take (replyBytes s.endLen s.body) ∧
        t.phase = .dec ∧ t.trace = s.trace ++ [.rx (replyBytes s.endLen s.body) (.bytes (b.take (replyBytes s.endLen s.body)))]) ∧
      (a = .err → t.rxLen = 0 ∧ t.phase = .judge (.retry .transport) ∧
        t.trace = s.trace ++ [.rx (replyBytes s.endLen s.body) .err])

/-- R222: the phases of an attempt follow the table: a phase stays or goes to one of its last column; and PH_RX goes to PH_BACKOFF,
an arrow that stands only in PH_BACKOFF's column "entered" ("start-reply status BUSY"). How the model's phases belong to R222's,
and that arrow, are the model's choice (log 27, DESIGN CHOICE). -/
def Obligations.PhasesFollowTheTable : Prop :=
  ∀ s t : State, Inv s → s.quiet → step s = .next t → s.phase.group.leadsTo t.phase.group = true

/-! ## Invariants -/

/-- R41 and the sequencer's place: every step keeps the invariant, whatever the host presents and the environment answers. -/
def Obligations.StepKeepsTheInvariant : Prop :=
  ∀ s t : State, Inv s → step s = .next t → Inv t

/-- The invariants hold right after reset, and the image store is in canonical form. -/
def Obligations.ResetMeetsTheInvariants : Prop :=
  Inv State.reset ∧ WireInv State.reset ∧ Memory.wf State.reset.img = true

/-- R41: in every state a machine can reach after reset, in any environment. -/
def Obligations.ReachablePositions : Prop :=
  ∀ s : State, Reachable s → PositionInv s

/-- R63, R64, R217, R9: every step keeps the frame under construction the one the position calls for, and emits nothing or one
event: the Tx of exactly that frame, the Rx of the step's reply with at most the asked bytes, a WaitUnit of a start step, or the
terminal event. Nothing the host presents, and no bench word, changes that. -/
def Obligations.WireCarriesTheDueFrames : Prop :=
  ∀ s t : State, Inv s → WireInv s → step s = .next t →
    WireInv t ∧
    (t.trace = s.trace ∨
      ∃ e, t.trace = s.trace ++ [e] ∧
        match e with
        | .tx f a => s.busy = true ∧ s.phase = .tx ∧ f = s.dueFrame ∧ s.txAns = a :: t.txAns
        | .rx n a => s.busy = true ∧ s.phase = .rx ∧ n = replyBytes s.endLen s.body ∧ (∀ b, a = .bytes b → b.length ≤ n)
        | .waitUnit => s.fsm = .starting ∧ s.phase = .backoff
        | .terminal .done => t.fsm = .done
        | .terminal (.failed fs q p c) => t.fsm = .failed ∧ fs = t.failStep ∧ q = t.failPlane ∧ p = t.failPage ∧ c = t.failCause)

/-- R50, R60, R8: TXB is written by an encoder only, RXB by Rx only, PAGE with its length and checksum, and the checksum engine, by
SEG.PAGE only, and by reset; SEND writes none of them. The test bench (log 29) is empty in every state a machine reaches. -/
def Obligations.BuffersHaveOneWriter : Prop :=
  (∀ s t : State, s.pinUp = false → s.benchWord = none → step s = .next t →
    (t.txBuf ≠ s.txBuf ∨ t.txLen ≠ s.txLen → ∃ p, s.phase = .enc p) ∧
    (t.rxBuf ≠ s.rxBuf ∨ t.rxLen ≠ s.rxLen → s.phase = .rx) ∧
    (t.pageBuf ≠ s.pageBuf ∨ t.pageLen ≠ s.pageLen ∨ t.pageCrc ≠ s.pageCrc ∨ t.crcReg ≠ s.crcReg → s.phase = .segPage)) ∧
  (∀ s : State, Reachable s → s.bench = none)

/-- The image store as memory (R51; canonical form, log 4): a byte written is read back and no other byte changes. -/
def Obligations.ImageWriteThenRead : Prop :=
  ∀ (m : Memory) (k k' : Nat) (v : Byte), Memory.wf m = true →
    Memory.read (Memory.write m k v) k' = if k' = k then v else Memory.read m k'

/-- Equal memories are equal data: two image stores in canonical form that read alike everywhere are the same list (log 4). -/
def Obligations.CanonicalImagesAreEqual : Prop :=
  ∀ m m' : Memory, Memory.wf m = true → Memory.wf m' = true → (∀ k, Memory.read m k = Memory.read m' k) → m = m'
end

