-- ==== Sys2Proof/Laws/State.lean ====
section
/-! SUPPORT. The small lemmas of the named updates of State: one per field, so that no later proof unfolds a record update. -/

namespace Sys2Proof.Machine.State

variable (s : State)

/-! ### `returns`: latching a returned value (log 10) -/

@[simp] theorem returns_fsm (r : Result) : (s.returns r).fsm = s.fsm := rfl
@[simp] theorem returns_plane (r : Result) : (s.returns r).plane = s.plane := rfl
@[simp] theorem returns_page (r : Result) : (s.returns r).page = s.page := rfl
@[simp] theorem returns_sub (r : Result) : (s.returns r).sub = s.sub := rfl
@[simp] theorem returns_attempt (r : Result) : (s.returns r).attempt = s.attempt := rfl
@[simp] theorem returns_slot (r : Result) : (s.returns r).slot = s.slot := rfl
@[simp] theorem returns_crcReg (r : Result) : (s.returns r).crcReg = s.crcReg := rfl
@[simp] theorem returns_pageBuf (r : Result) : (s.returns r).pageBuf = s.pageBuf := rfl
@[simp] theorem returns_pageLen (r : Result) : (s.returns r).pageLen = s.pageLen := rfl
@[simp] theorem returns_pageCrc (r : Result) : (s.returns r).pageCrc = s.pageCrc := rfl
@[simp] theorem returns_txBuf (r : Result) : (s.returns r).txBuf = s.txBuf := rfl
@[simp] theorem returns_txLen (r : Result) : (s.returns r).txLen = s.txLen := rfl
@[simp] theorem returns_rxBuf (r : Result) : (s.returns r).rxBuf = s.rxBuf := rfl
@[simp] theorem returns_rxLen (r : Result) : (s.returns r).rxLen = s.rxLen := rfl
@[simp] theorem returns_failStep (r : Result) : (s.returns r).failStep = s.failStep := rfl
@[simp] theorem returns_failPlane (r : Result) : (s.returns r).failPlane = s.failPlane := rfl
@[simp] theorem returns_failPage (r : Result) : (s.returns r).failPage = s.failPage := rfl
@[simp] theorem returns_failCause (r : Result) : (s.returns r).failCause = s.failCause := rfl
@[simp] theorem returns_lastCause (r : Result) : (s.returns r).lastCause = s.lastCause := rfl
@[simp] theorem returns_lastCmd16 (r : Result) : (s.returns r).lastCmd16 = s.lastCmd16 := rfl
@[simp] theorem returns_lastStatus (r : Result) : (s.returns r).lastStatus = s.lastStatus := rfl
@[simp] theorem returns_lastPage (r : Result) : (s.returns r).lastPage = s.lastPage := rfl
@[simp] theorem returns_lastSlot16 (r : Result) : (s.returns r).lastSlot16 = s.lastSlot16 := rfl
@[simp] theorem returns_phase (r : Result) : (s.returns r).phase = s.phase := rfl
@[simp] theorem returns_body (r : Result) : (s.returns r).body = s.body := rfl
@[simp] theorem returns_scope (r : Result) : (s.returns r).scope = s.scope := rfl
@[simp] theorem returns_endLen (r : Result) : (s.returns r).endLen = s.endLen := rfl
@[simp] theorem returns_img (r : Result) : (s.returns r).img = s.img := rfl
@[simp] theorem returns_txAns (r : Result) : (s.returns r).txAns = s.txAns := rfl
@[simp] theorem returns_rxAns (r : Result) : (s.returns r).rxAns = s.rxAns := rfl
@[simp] theorem returns_ticks (r : Result) : (s.returns r).ticks = s.ticks := rfl
@[simp] theorem returns_inputs (r : Result) : (s.returns r).inputs = s.inputs := rfl
@[simp] theorem returns_bench (r : Result) : (s.returns r).bench = s.bench := rfl
@[simp] theorem returns_trace (r : Result) : (s.returns r).trace = s.trace := rfl
@[simp] theorem returns_result (r : Result) : (s.returns r).result = r := rfl
@[simp] theorem returns_crcInit (r : Result) : (s.returns r).crcInit = s.crcInit := rfl
@[simp] theorem returns_free (r : Result) : (s.returns r).free = s.free := rfl

/-! ### `putCrc`: writing `crc_reg` (R30) -/

@[simp] theorem putCrc_fsm (w : Word) : (s.putCrc w).fsm = s.fsm := rfl
@[simp] theorem putCrc_plane (w : Word) : (s.putCrc w).plane = s.plane := rfl
@[simp] theorem putCrc_page (w : Word) : (s.putCrc w).page = s.page := rfl
@[simp] theorem putCrc_sub (w : Word) : (s.putCrc w).sub = s.sub := rfl
@[simp] theorem putCrc_attempt (w : Word) : (s.putCrc w).attempt = s.attempt := rfl
@[simp] theorem putCrc_slot (w : Word) : (s.putCrc w).slot = s.slot := rfl
@[simp] theorem putCrc_crcReg (w : Word) : (s.putCrc w).crcReg = w := rfl
@[simp] theorem putCrc_pageBuf (w : Word) : (s.putCrc w).pageBuf = s.pageBuf := rfl
@[simp] theorem putCrc_pageLen (w : Word) : (s.putCrc w).pageLen = s.pageLen := rfl
@[simp] theorem putCrc_pageCrc (w : Word) : (s.putCrc w).pageCrc = s.pageCrc := rfl
@[simp] theorem putCrc_txBuf (w : Word) : (s.putCrc w).txBuf = s.txBuf := rfl
@[simp] theorem putCrc_txLen (w : Word) : (s.putCrc w).txLen = s.txLen := rfl
@[simp] theorem putCrc_rxBuf (w : Word) : (s.putCrc w).rxBuf = s.rxBuf := rfl
@[simp] theorem putCrc_rxLen (w : Word) : (s.putCrc w).rxLen = s.rxLen := rfl
@[simp] theorem putCrc_failStep (w : Word) : (s.putCrc w).failStep = s.failStep := rfl
@[simp] theorem putCrc_failPlane (w : Word) : (s.putCrc w).failPlane = s.failPlane := rfl
@[simp] theorem putCrc_failPage (w : Word) : (s.putCrc w).failPage = s.failPage := rfl
@[simp] theorem putCrc_failCause (w : Word) : (s.putCrc w).failCause = s.failCause := rfl
@[simp] theorem putCrc_lastCause (w : Word) : (s.putCrc w).lastCause = s.lastCause := rfl
@[simp] theorem putCrc_lastCmd16 (w : Word) : (s.putCrc w).lastCmd16 = s.lastCmd16 := rfl
@[simp] theorem putCrc_lastStatus (w : Word) : (s.putCrc w).lastStatus = s.lastStatus := rfl
@[simp] theorem putCrc_lastPage (w : Word) : (s.putCrc w).lastPage = s.lastPage := rfl
@[simp] theorem putCrc_lastSlot16 (w : Word) : (s.putCrc w).lastSlot16 = s.lastSlot16 := rfl
@[simp] theorem putCrc_phase (w : Word) : (s.putCrc w).phase = s.phase := rfl
@[simp] theorem putCrc_body (w : Word) : (s.putCrc w).body = s.body := rfl
@[simp] theorem putCrc_scope (w : Word) : (s.putCrc w).scope = s.scope := rfl
@[simp] theorem putCrc_endLen (w : Word) : (s.putCrc w).endLen = s.endLen := rfl
@[simp] theorem putCrc_img (w : Word) : (s.putCrc w).img = s.img := rfl
@[simp] theorem putCrc_txAns (w : Word) : (s.putCrc w).txAns = s.txAns := rfl
@[simp] theorem putCrc_rxAns (w : Word) : (s.putCrc w).rxAns = s.rxAns := rfl
@[simp] theorem putCrc_ticks (w : Word) : (s.putCrc w).ticks = s.ticks := rfl
@[simp] theorem putCrc_inputs (w : Word) : (s.putCrc w).inputs = s.inputs := rfl
@[simp] theorem putCrc_bench (w : Word) : (s.putCrc w).bench = s.bench := rfl
@[simp] theorem putCrc_trace (w : Word) : (s.putCrc w).trace = s.trace := rfl
@[simp] theorem putCrc_result (w : Word) : (s.putCrc w).result = s.result := rfl
@[simp] theorem putCrc_crcInit (w : Word) : (s.putCrc w).crcInit = true := rfl
@[simp] theorem putCrc_free (w : Word) : (s.putCrc w).free = s.free := rfl

/-! ### `atPhase`: standing at a phase (R222) -/

@[simp] theorem atPhase_fsm (p : Phase) : (s.atPhase p).fsm = s.fsm := rfl
@[simp] theorem atPhase_plane (p : Phase) : (s.atPhase p).plane = s.plane := rfl
@[simp] theorem atPhase_page (p : Phase) : (s.atPhase p).page = s.page := rfl
@[simp] theorem atPhase_sub (p : Phase) : (s.atPhase p).sub = s.sub := rfl
@[simp] theorem atPhase_attempt (p : Phase) : (s.atPhase p).attempt = s.attempt := rfl
@[simp] theorem atPhase_slot (p : Phase) : (s.atPhase p).slot = s.slot := rfl
@[simp] theorem atPhase_crcReg (p : Phase) : (s.atPhase p).crcReg = s.crcReg := rfl
@[simp] theorem atPhase_pageBuf (p : Phase) : (s.atPhase p).pageBuf = s.pageBuf := rfl
@[simp] theorem atPhase_pageLen (p : Phase) : (s.atPhase p).pageLen = s.pageLen := rfl
@[simp] theorem atPhase_pageCrc (p : Phase) : (s.atPhase p).pageCrc = s.pageCrc := rfl
@[simp] theorem atPhase_txBuf (p : Phase) : (s.atPhase p).txBuf = s.txBuf := rfl
@[simp] theorem atPhase_txLen (p : Phase) : (s.atPhase p).txLen = s.txLen := rfl
@[simp] theorem atPhase_rxBuf (p : Phase) : (s.atPhase p).rxBuf = s.rxBuf := rfl
@[simp] theorem atPhase_rxLen (p : Phase) : (s.atPhase p).rxLen = s.rxLen := rfl
@[simp] theorem atPhase_failStep (p : Phase) : (s.atPhase p).failStep = s.failStep := rfl
@[simp] theorem atPhase_failPlane (p : Phase) : (s.atPhase p).failPlane = s.failPlane := rfl
@[simp] theorem atPhase_failPage (p : Phase) : (s.atPhase p).failPage = s.failPage := rfl
@[simp] theorem atPhase_failCause (p : Phase) : (s.atPhase p).failCause = s.failCause := rfl
@[simp] theorem atPhase_lastCause (p : Phase) : (s.atPhase p).lastCause = s.lastCause := rfl
@[simp] theorem atPhase_lastCmd16 (p : Phase) : (s.atPhase p).lastCmd16 = s.lastCmd16 := rfl
@[simp] theorem atPhase_lastStatus (p : Phase) : (s.atPhase p).lastStatus = s.lastStatus := rfl
@[simp] theorem atPhase_lastPage (p : Phase) : (s.atPhase p).lastPage = s.lastPage := rfl
@[simp] theorem atPhase_lastSlot16 (p : Phase) : (s.atPhase p).lastSlot16 = s.lastSlot16 := rfl
@[simp] theorem atPhase_phase (p : Phase) : (s.atPhase p).phase = p := rfl
@[simp] theorem atPhase_body (p : Phase) : (s.atPhase p).body = s.body := rfl
@[simp] theorem atPhase_scope (p : Phase) : (s.atPhase p).scope = s.scope := rfl
@[simp] theorem atPhase_endLen (p : Phase) : (s.atPhase p).endLen = s.endLen := rfl
@[simp] theorem atPhase_img (p : Phase) : (s.atPhase p).img = s.img := rfl
@[simp] theorem atPhase_txAns (p : Phase) : (s.atPhase p).txAns = s.txAns := rfl
@[simp] theorem atPhase_rxAns (p : Phase) : (s.atPhase p).rxAns = s.rxAns := rfl
@[simp] theorem atPhase_ticks (p : Phase) : (s.atPhase p).ticks = s.ticks := rfl
@[simp] theorem atPhase_inputs (p : Phase) : (s.atPhase p).inputs = s.inputs := rfl
@[simp] theorem atPhase_bench (p : Phase) : (s.atPhase p).bench = s.bench := rfl
@[simp] theorem atPhase_trace (p : Phase) : (s.atPhase p).trace = s.trace := rfl
@[simp] theorem atPhase_result (p : Phase) : (s.atPhase p).result = s.result := rfl
@[simp] theorem atPhase_crcInit (p : Phase) : (s.atPhase p).crcInit = s.crcInit := rfl
@[simp] theorem atPhase_free (p : Phase) : (s.atPhase p).free = s.free := rfl

/-! ### `emit`: emitting an event (R9) -/

@[simp] theorem emit_fsm (e : Event) : (s.emit e).fsm = s.fsm := rfl
@[simp] theorem emit_plane (e : Event) : (s.emit e).plane = s.plane := rfl
@[simp] theorem emit_page (e : Event) : (s.emit e).page = s.page := rfl
@[simp] theorem emit_sub (e : Event) : (s.emit e).sub = s.sub := rfl
@[simp] theorem emit_attempt (e : Event) : (s.emit e).attempt = s.attempt := rfl
@[simp] theorem emit_slot (e : Event) : (s.emit e).slot = s.slot := rfl
@[simp] theorem emit_crcReg (e : Event) : (s.emit e).crcReg = s.crcReg := rfl
@[simp] theorem emit_pageBuf (e : Event) : (s.emit e).pageBuf = s.pageBuf := rfl
@[simp] theorem emit_pageLen (e : Event) : (s.emit e).pageLen = s.pageLen := rfl
@[simp] theorem emit_pageCrc (e : Event) : (s.emit e).pageCrc = s.pageCrc := rfl
@[simp] theorem emit_txBuf (e : Event) : (s.emit e).txBuf = s.txBuf := rfl
@[simp] theorem emit_txLen (e : Event) : (s.emit e).txLen = s.txLen := rfl
@[simp] theorem emit_rxBuf (e : Event) : (s.emit e).rxBuf = s.rxBuf := rfl
@[simp] theorem emit_rxLen (e : Event) : (s.emit e).rxLen = s.rxLen := rfl
@[simp] theorem emit_failStep (e : Event) : (s.emit e).failStep = s.failStep := rfl
@[simp] theorem emit_failPlane (e : Event) : (s.emit e).failPlane = s.failPlane := rfl
@[simp] theorem emit_failPage (e : Event) : (s.emit e).failPage = s.failPage := rfl
@[simp] theorem emit_failCause (e : Event) : (s.emit e).failCause = s.failCause := rfl
@[simp] theorem emit_lastCause (e : Event) : (s.emit e).lastCause = s.lastCause := rfl
@[simp] theorem emit_lastCmd16 (e : Event) : (s.emit e).lastCmd16 = s.lastCmd16 := rfl
@[simp] theorem emit_lastStatus (e : Event) : (s.emit e).lastStatus = s.lastStatus := rfl
@[simp] theorem emit_lastPage (e : Event) : (s.emit e).lastPage = s.lastPage := rfl
@[simp] theorem emit_lastSlot16 (e : Event) : (s.emit e).lastSlot16 = s.lastSlot16 := rfl
@[simp] theorem emit_phase (e : Event) : (s.emit e).phase = s.phase := rfl
@[simp] theorem emit_body (e : Event) : (s.emit e).body = s.body := rfl
@[simp] theorem emit_scope (e : Event) : (s.emit e).scope = s.scope := rfl
@[simp] theorem emit_endLen (e : Event) : (s.emit e).endLen = s.endLen := rfl
@[simp] theorem emit_img (e : Event) : (s.emit e).img = s.img := rfl
@[simp] theorem emit_txAns (e : Event) : (s.emit e).txAns = s.txAns := rfl
@[simp] theorem emit_rxAns (e : Event) : (s.emit e).rxAns = s.rxAns := rfl
@[simp] theorem emit_ticks (e : Event) : (s.emit e).ticks = s.ticks := rfl
@[simp] theorem emit_inputs (e : Event) : (s.emit e).inputs = s.inputs := rfl
@[simp] theorem emit_bench (e : Event) : (s.emit e).bench = s.bench := rfl
@[simp] theorem emit_trace (e : Event) : (s.emit e).trace = s.trace ++ [e] := rfl
@[simp] theorem emit_result (e : Event) : (s.emit e).result = s.result := rfl
@[simp] theorem emit_crcInit (e : Event) : (s.emit e).crcInit = s.crcInit := rfl
@[simp] theorem emit_free (e : Event) : (s.emit e).free = s.free := rfl

/-! ### `putFrame`: putting a frame in `tx_buf` (R140) -/

@[simp] theorem putFrame_fsm (f : List Byte) : (s.putFrame f).fsm = s.fsm := rfl
@[simp] theorem putFrame_plane (f : List Byte) : (s.putFrame f).plane = s.plane := rfl
@[simp] theorem putFrame_page (f : List Byte) : (s.putFrame f).page = s.page := rfl
@[simp] theorem putFrame_sub (f : List Byte) : (s.putFrame f).sub = s.sub := rfl
@[simp] theorem putFrame_attempt (f : List Byte) : (s.putFrame f).attempt = s.attempt := rfl
@[simp] theorem putFrame_slot (f : List Byte) : (s.putFrame f).slot = s.slot := rfl
@[simp] theorem putFrame_crcReg (f : List Byte) : (s.putFrame f).crcReg = s.crcReg := rfl
@[simp] theorem putFrame_pageBuf (f : List Byte) : (s.putFrame f).pageBuf = s.pageBuf := rfl
@[simp] theorem putFrame_pageLen (f : List Byte) : (s.putFrame f).pageLen = s.pageLen := rfl
@[simp] theorem putFrame_pageCrc (f : List Byte) : (s.putFrame f).pageCrc = s.pageCrc := rfl
@[simp] theorem putFrame_txBuf (f : List Byte) : (s.putFrame f).txBuf = bufOf 64 (poke s.txBuf.toList 0 f) := rfl
@[simp] theorem putFrame_txLen (f : List Byte) : (s.putFrame f).txLen = BitVec.ofNat 7 f.length := rfl
@[simp] theorem putFrame_rxBuf (f : List Byte) : (s.putFrame f).rxBuf = s.rxBuf := rfl
@[simp] theorem putFrame_rxLen (f : List Byte) : (s.putFrame f).rxLen = s.rxLen := rfl
@[simp] theorem putFrame_failStep (f : List Byte) : (s.putFrame f).failStep = s.failStep := rfl
@[simp] theorem putFrame_failPlane (f : List Byte) : (s.putFrame f).failPlane = s.failPlane := rfl
@[simp] theorem putFrame_failPage (f : List Byte) : (s.putFrame f).failPage = s.failPage := rfl
@[simp] theorem putFrame_failCause (f : List Byte) : (s.putFrame f).failCause = s.failCause := rfl
@[simp] theorem putFrame_lastCause (f : List Byte) : (s.putFrame f).lastCause = s.lastCause := rfl
@[simp] theorem putFrame_lastCmd16 (f : List Byte) : (s.putFrame f).lastCmd16 = s.lastCmd16 := rfl
@[simp] theorem putFrame_lastStatus (f : List Byte) : (s.putFrame f).lastStatus = s.lastStatus := rfl
@[simp] theorem putFrame_lastPage (f : List Byte) : (s.putFrame f).lastPage = s.lastPage := rfl
@[simp] theorem putFrame_lastSlot16 (f : List Byte) : (s.putFrame f).lastSlot16 = s.lastSlot16 := rfl
@[simp] theorem putFrame_phase (f : List Byte) : (s.putFrame f).phase = s.phase := rfl
@[simp] theorem putFrame_body (f : List Byte) : (s.putFrame f).body = s.body := rfl
@[simp] theorem putFrame_scope (f : List Byte) : (s.putFrame f).scope = s.scope := rfl
@[simp] theorem putFrame_endLen (f : List Byte) : (s.putFrame f).endLen = s.endLen := rfl
@[simp] theorem putFrame_img (f : List Byte) : (s.putFrame f).img = s.img := rfl
@[simp] theorem putFrame_txAns (f : List Byte) : (s.putFrame f).txAns = s.txAns := rfl
@[simp] theorem putFrame_rxAns (f : List Byte) : (s.putFrame f).rxAns = s.rxAns := rfl
@[simp] theorem putFrame_ticks (f : List Byte) : (s.putFrame f).ticks = s.ticks := rfl
@[simp] theorem putFrame_inputs (f : List Byte) : (s.putFrame f).inputs = s.inputs := rfl
@[simp] theorem putFrame_bench (f : List Byte) : (s.putFrame f).bench = s.bench := rfl
@[simp] theorem putFrame_trace (f : List Byte) : (s.putFrame f).trace = s.trace := rfl
@[simp] theorem putFrame_result (f : List Byte) : (s.putFrame f).result = s.result := rfl
@[simp] theorem putFrame_crcInit (f : List Byte) : (s.putFrame f).crcInit = s.crcInit := rfl
@[simp] theorem putFrame_free (f : List Byte) : (s.putFrame f).free = s.free := rfl

/-! ### `putReply`: delivery into `rx_buf` (R33) -/

@[simp] theorem putReply_fsm (b : List Byte) : (s.putReply b).fsm = s.fsm := rfl
@[simp] theorem putReply_plane (b : List Byte) : (s.putReply b).plane = s.plane := rfl
@[simp] theorem putReply_page (b : List Byte) : (s.putReply b).page = s.page := rfl
@[simp] theorem putReply_sub (b : List Byte) : (s.putReply b).sub = s.sub := rfl
@[simp] theorem putReply_attempt (b : List Byte) : (s.putReply b).attempt = s.attempt := rfl
@[simp] theorem putReply_slot (b : List Byte) : (s.putReply b).slot = s.slot := rfl
@[simp] theorem putReply_crcReg (b : List Byte) : (s.putReply b).crcReg = s.crcReg := rfl
@[simp] theorem putReply_pageBuf (b : List Byte) : (s.putReply b).pageBuf = s.pageBuf := rfl
@[simp] theorem putReply_pageLen (b : List Byte) : (s.putReply b).pageLen = s.pageLen := rfl
@[simp] theorem putReply_pageCrc (b : List Byte) : (s.putReply b).pageCrc = s.pageCrc := rfl
@[simp] theorem putReply_txBuf (b : List Byte) : (s.putReply b).txBuf = s.txBuf := rfl
@[simp] theorem putReply_txLen (b : List Byte) : (s.putReply b).txLen = s.txLen := rfl
@[simp] theorem putReply_rxBuf (b : List Byte) : (s.putReply b).rxBuf = bufOf 10 (b.take 10 ++ ((List.range 10).drop b.length).map (Config.freeByte s.free)) := rfl
@[simp] theorem putReply_rxLen (b : List Byte) : (s.putReply b).rxLen = BitVec.ofNat 4 (b.take 10).length := rfl
@[simp] theorem putReply_failStep (b : List Byte) : (s.putReply b).failStep = s.failStep := rfl
@[simp] theorem putReply_failPlane (b : List Byte) : (s.putReply b).failPlane = s.failPlane := rfl
@[simp] theorem putReply_failPage (b : List Byte) : (s.putReply b).failPage = s.failPage := rfl
@[simp] theorem putReply_failCause (b : List Byte) : (s.putReply b).failCause = s.failCause := rfl
@[simp] theorem putReply_lastCause (b : List Byte) : (s.putReply b).lastCause = s.lastCause := rfl
@[simp] theorem putReply_lastCmd16 (b : List Byte) : (s.putReply b).lastCmd16 = s.lastCmd16 := rfl
@[simp] theorem putReply_lastStatus (b : List Byte) : (s.putReply b).lastStatus = s.lastStatus := rfl
@[simp] theorem putReply_lastPage (b : List Byte) : (s.putReply b).lastPage = s.lastPage := rfl
@[simp] theorem putReply_lastSlot16 (b : List Byte) : (s.putReply b).lastSlot16 = s.lastSlot16 := rfl
@[simp] theorem putReply_phase (b : List Byte) : (s.putReply b).phase = s.phase := rfl
@[simp] theorem putReply_body (b : List Byte) : (s.putReply b).body = s.body := rfl
@[simp] theorem putReply_scope (b : List Byte) : (s.putReply b).scope = s.scope := rfl
@[simp] theorem putReply_endLen (b : List Byte) : (s.putReply b).endLen = s.endLen := rfl
@[simp] theorem putReply_img (b : List Byte) : (s.putReply b).img = s.img := rfl
@[simp] theorem putReply_txAns (b : List Byte) : (s.putReply b).txAns = s.txAns := rfl
@[simp] theorem putReply_rxAns (b : List Byte) : (s.putReply b).rxAns = s.rxAns := rfl
@[simp] theorem putReply_ticks (b : List Byte) : (s.putReply b).ticks = s.ticks := rfl
@[simp] theorem putReply_inputs (b : List Byte) : (s.putReply b).inputs = s.inputs := rfl
@[simp] theorem putReply_bench (b : List Byte) : (s.putReply b).bench = s.bench := rfl
@[simp] theorem putReply_trace (b : List Byte) : (s.putReply b).trace = s.trace := rfl
@[simp] theorem putReply_result (b : List Byte) : (s.putReply b).result = s.result := rfl
@[simp] theorem putReply_crcInit (b : List Byte) : (s.putReply b).crcInit = s.crcInit := rfl
@[simp] theorem putReply_free (b : List Byte) : (s.putReply b).free = s.free + 1 := rfl

/-! ### `beginAttempt`: the beginning of an attempt (R212) -/

@[simp] theorem beginAttempt_fsm : (s.beginAttempt).fsm = s.fsm := rfl
@[simp] theorem beginAttempt_plane : (s.beginAttempt).plane = s.plane := rfl
@[simp] theorem beginAttempt_page : (s.beginAttempt).page = s.page := rfl
@[simp] theorem beginAttempt_sub : (s.beginAttempt).sub = s.sub := rfl
@[simp] theorem beginAttempt_attempt : (s.beginAttempt).attempt = s.attempt + 1 := rfl
@[simp] theorem beginAttempt_slot : (s.beginAttempt).slot = s.slot := rfl
@[simp] theorem beginAttempt_crcReg : (s.beginAttempt).crcReg = s.crcReg := rfl
@[simp] theorem beginAttempt_pageBuf : (s.beginAttempt).pageBuf = s.pageBuf := rfl
@[simp] theorem beginAttempt_pageLen : (s.beginAttempt).pageLen = s.pageLen := rfl
@[simp] theorem beginAttempt_pageCrc : (s.beginAttempt).pageCrc = s.pageCrc := rfl
@[simp] theorem beginAttempt_txBuf : (s.beginAttempt).txBuf = s.txBuf := rfl
@[simp] theorem beginAttempt_txLen : (s.beginAttempt).txLen = s.txLen := rfl
@[simp] theorem beginAttempt_rxBuf : (s.beginAttempt).rxBuf = s.rxBuf := rfl
@[simp] theorem beginAttempt_rxLen : (s.beginAttempt).rxLen = s.rxLen := rfl
@[simp] theorem beginAttempt_failStep : (s.beginAttempt).failStep = s.failStep := rfl
@[simp] theorem beginAttempt_failPlane : (s.beginAttempt).failPlane = s.failPlane := rfl
@[simp] theorem beginAttempt_failPage : (s.beginAttempt).failPage = s.failPage := rfl
@[simp] theorem beginAttempt_failCause : (s.beginAttempt).failCause = s.failCause := rfl
@[simp] theorem beginAttempt_lastCause : (s.beginAttempt).lastCause = s.lastCause := rfl
@[simp] theorem beginAttempt_lastCmd16 : (s.beginAttempt).lastCmd16 = s.lastCmd16 := rfl
@[simp] theorem beginAttempt_lastStatus : (s.beginAttempt).lastStatus = s.lastStatus := rfl
@[simp] theorem beginAttempt_lastPage : (s.beginAttempt).lastPage = s.lastPage := rfl
@[simp] theorem beginAttempt_lastSlot16 : (s.beginAttempt).lastSlot16 = s.lastSlot16 := rfl
@[simp] theorem beginAttempt_phase : (s.beginAttempt).phase = firstPhase s.body := rfl
@[simp] theorem beginAttempt_body : (s.beginAttempt).body = s.body := rfl
@[simp] theorem beginAttempt_scope : (s.beginAttempt).scope = s.scope := rfl
@[simp] theorem beginAttempt_endLen : (s.beginAttempt).endLen = s.endLen := rfl
@[simp] theorem beginAttempt_img : (s.beginAttempt).img = s.img := rfl
@[simp] theorem beginAttempt_txAns : (s.beginAttempt).txAns = s.txAns := rfl
@[simp] theorem beginAttempt_rxAns : (s.beginAttempt).rxAns = s.rxAns := rfl
@[simp] theorem beginAttempt_ticks : (s.beginAttempt).ticks = s.ticks := rfl
@[simp] theorem beginAttempt_inputs : (s.beginAttempt).inputs = s.inputs := rfl
@[simp] theorem beginAttempt_bench : (s.beginAttempt).bench = s.bench := rfl
@[simp] theorem beginAttempt_trace : (s.beginAttempt).trace = s.trace := rfl
@[simp] theorem beginAttempt_result : (s.beginAttempt).result = s.result := rfl
@[simp] theorem beginAttempt_crcInit : (s.beginAttempt).crcInit = s.crcInit := rfl
@[simp] theorem beginAttempt_free : (s.beginAttempt).free = s.free := rfl

/-! ### `loadPage`: the registers SEG.PAGE writes (R191) -/

@[simp] theorem loadPage_fsm (q : Plane) (p : Page) : (s.loadPage q p).fsm = s.fsm := rfl
@[simp] theorem loadPage_plane (q : Plane) (p : Page) : (s.loadPage q p).plane = s.plane := rfl
@[simp] theorem loadPage_page (q : Plane) (p : Page) : (s.loadPage q p).page = s.page := rfl
@[simp] theorem loadPage_sub (q : Plane) (p : Page) : (s.loadPage q p).sub = s.sub := rfl
@[simp] theorem loadPage_attempt (q : Plane) (p : Page) : (s.loadPage q p).attempt = s.attempt := rfl
@[simp] theorem loadPage_slot (q : Plane) (p : Page) : (s.loadPage q p).slot = s.slot := rfl
@[simp] theorem loadPage_crcReg (q : Plane) (p : Page) : (s.loadPage q p).crcReg = crcRegister (pageData s.img q p) := rfl
@[simp] theorem loadPage_pageBuf (q : Plane) (p : Page) : (s.loadPage q p).pageBuf = bufOf 248 (pageData s.img q p) := rfl
@[simp] theorem loadPage_pageLen (q : Plane) (p : Page) : (s.loadPage q p).pageLen = BitVec.ofNat 8 (pageBytes p) := rfl
@[simp] theorem loadPage_pageCrc (q : Plane) (p : Page) : (s.loadPage q p).pageCrc = checksum (pageData s.img q p) := rfl
@[simp] theorem loadPage_txBuf (q : Plane) (p : Page) : (s.loadPage q p).txBuf = s.txBuf := rfl
@[simp] theorem loadPage_txLen (q : Plane) (p : Page) : (s.loadPage q p).txLen = s.txLen := rfl
@[simp] theorem loadPage_rxBuf (q : Plane) (p : Page) : (s.loadPage q p).rxBuf = s.rxBuf := rfl
@[simp] theorem loadPage_rxLen (q : Plane) (p : Page) : (s.loadPage q p).rxLen = s.rxLen := rfl
@[simp] theorem loadPage_failStep (q : Plane) (p : Page) : (s.loadPage q p).failStep = s.failStep := rfl
@[simp] theorem loadPage_failPlane (q : Plane) (p : Page) : (s.loadPage q p).failPlane = s.failPlane := rfl
@[simp] theorem loadPage_failPage (q : Plane) (p : Page) : (s.loadPage q p).failPage = s.failPage := rfl
@[simp] theorem loadPage_failCause (q : Plane) (p : Page) : (s.loadPage q p).failCause = s.failCause := rfl
@[simp] theorem loadPage_lastCause (q : Plane) (p : Page) : (s.loadPage q p).lastCause = s.lastCause := rfl
@[simp] theorem loadPage_lastCmd16 (q : Plane) (p : Page) : (s.loadPage q p).lastCmd16 = s.lastCmd16 := rfl
@[simp] theorem loadPage_lastStatus (q : Plane) (p : Page) : (s.loadPage q p).lastStatus = s.lastStatus := rfl
@[simp] theorem loadPage_lastPage (q : Plane) (p : Page) : (s.loadPage q p).lastPage = s.lastPage := rfl
@[simp] theorem loadPage_lastSlot16 (q : Plane) (p : Page) : (s.loadPage q p).lastSlot16 = s.lastSlot16 := rfl
@[simp] theorem loadPage_phase (q : Plane) (p : Page) : (s.loadPage q p).phase = s.phase := rfl
@[simp] theorem loadPage_body (q : Plane) (p : Page) : (s.loadPage q p).body = s.body := rfl
@[simp] theorem loadPage_scope (q : Plane) (p : Page) : (s.loadPage q p).scope = s.scope := rfl
@[simp] theorem loadPage_endLen (q : Plane) (p : Page) : (s.loadPage q p).endLen = s.endLen := rfl
@[simp] theorem loadPage_img (q : Plane) (p : Page) : (s.loadPage q p).img = s.img := rfl
@[simp] theorem loadPage_txAns (q : Plane) (p : Page) : (s.loadPage q p).txAns = s.txAns := rfl
@[simp] theorem loadPage_rxAns (q : Plane) (p : Page) : (s.loadPage q p).rxAns = s.rxAns := rfl
@[simp] theorem loadPage_ticks (q : Plane) (p : Page) : (s.loadPage q p).ticks = s.ticks := rfl
@[simp] theorem loadPage_inputs (q : Plane) (p : Page) : (s.loadPage q p).inputs = s.inputs := rfl
@[simp] theorem loadPage_bench (q : Plane) (p : Page) : (s.loadPage q p).bench = s.bench := rfl
@[simp] theorem loadPage_trace (q : Plane) (p : Page) : (s.loadPage q p).trace = s.trace := rfl
@[simp] theorem loadPage_result (q : Plane) (p : Page) : (s.loadPage q p).result = s.result := rfl
@[simp] theorem loadPage_crcInit (q : Plane) (p : Page) : (s.loadPage q p).crcInit = true := rfl
@[simp] theorem loadPage_free (q : Plane) (p : Page) : (s.loadPage q p).free = s.free := rfl

/-! ### `fail`: the terminal failure (R219) -/

@[simp] theorem fail_fsm (st : FailStep) (q : Plane) (p : Page) (c : Cause) : (s.fail st q p c).fsm = .failed := rfl
@[simp] theorem fail_plane (st : FailStep) (q : Plane) (p : Page) (c : Cause) : (s.fail st q p c).plane = s.plane := rfl
@[simp] theorem fail_page (st : FailStep) (q : Plane) (p : Page) (c : Cause) : (s.fail st q p c).page = s.page := rfl
@[simp] theorem fail_sub (st : FailStep) (q : Plane) (p : Page) (c : Cause) : (s.fail st q p c).sub = s.sub := rfl
@[simp] theorem fail_attempt (st : FailStep) (q : Plane) (p : Page) (c : Cause) : (s.fail st q p c).attempt = s.attempt := rfl
@[simp] theorem fail_slot (st : FailStep) (q : Plane) (p : Page) (c : Cause) : (s.fail st q p c).slot = s.slot := rfl
@[simp] theorem fail_crcReg (st : FailStep) (q : Plane) (p : Page) (c : Cause) : (s.fail st q p c).crcReg = s.crcReg := rfl
@[simp] theorem fail_pageBuf (st : FailStep) (q : Plane) (p : Page) (c : Cause) : (s.fail st q p c).pageBuf = s.pageBuf := rfl
@[simp] theorem fail_pageLen (st : FailStep) (q : Plane) (p : Page) (c : Cause) : (s.fail st q p c).pageLen = s.pageLen := rfl
@[simp] theorem fail_pageCrc (st : FailStep) (q : Plane) (p : Page) (c : Cause) : (s.fail st q p c).pageCrc = s.pageCrc := rfl
@[simp] theorem fail_txBuf (st : FailStep) (q : Plane) (p : Page) (c : Cause) : (s.fail st q p c).txBuf = s.txBuf := rfl
@[simp] theorem fail_txLen (st : FailStep) (q : Plane) (p : Page) (c : Cause) : (s.fail st q p c).txLen = s.txLen := rfl
@[simp] theorem fail_rxBuf (st : FailStep) (q : Plane) (p : Page) (c : Cause) : (s.fail st q p c).rxBuf = s.rxBuf := rfl
@[simp] theorem fail_rxLen (st : FailStep) (q : Plane) (p : Page) (c : Cause) : (s.fail st q p c).rxLen = s.rxLen := rfl
@[simp] theorem fail_failStep (st : FailStep) (q : Plane) (p : Page) (c : Cause) : (s.fail st q p c).failStep = st := rfl
@[simp] theorem fail_failPlane (st : FailStep) (q : Plane) (p : Page) (c : Cause) : (s.fail st q p c).failPlane = q := rfl
@[simp] theorem fail_failPage (st : FailStep) (q : Plane) (p : Page) (c : Cause) : (s.fail st q p c).failPage = p := rfl
@[simp] theorem fail_failCause (st : FailStep) (q : Plane) (p : Page) (c : Cause) : (s.fail st q p c).failCause = c := rfl
@[simp] theorem fail_lastCause (st : FailStep) (q : Plane) (p : Page) (c : Cause) : (s.fail st q p c).lastCause = s.lastCause := rfl
@[simp] theorem fail_lastCmd16 (st : FailStep) (q : Plane) (p : Page) (c : Cause) : (s.fail st q p c).lastCmd16 = s.lastCmd16 := rfl
@[simp] theorem fail_lastStatus (st : FailStep) (q : Plane) (p : Page) (c : Cause) : (s.fail st q p c).lastStatus = s.lastStatus := rfl
@[simp] theorem fail_lastPage (st : FailStep) (q : Plane) (p : Page) (c : Cause) : (s.fail st q p c).lastPage = s.lastPage := rfl
@[simp] theorem fail_lastSlot16 (st : FailStep) (q : Plane) (p : Page) (c : Cause) : (s.fail st q p c).lastSlot16 = s.lastSlot16 := rfl
@[simp] theorem fail_phase (st : FailStep) (q : Plane) (p : Page) (c : Cause) : (s.fail st q p c).phase = .idle := rfl
@[simp] theorem fail_body (st : FailStep) (q : Plane) (p : Page) (c : Cause) : (s.fail st q p c).body = s.body := rfl
@[simp] theorem fail_scope (st : FailStep) (q : Plane) (p : Page) (c : Cause) : (s.fail st q p c).scope = s.scope := rfl
@[simp] theorem fail_endLen (st : FailStep) (q : Plane) (p : Page) (c : Cause) : (s.fail st q p c).endLen = s.endLen := rfl
@[simp] theorem fail_img (st : FailStep) (q : Plane) (p : Page) (c : Cause) : (s.fail st q p c).img = s.img := rfl
@[simp] theorem fail_txAns (st : FailStep) (q : Plane) (p : Page) (c : Cause) : (s.fail st q p c).txAns = s.txAns := rfl
@[simp] theorem fail_rxAns (st : FailStep) (q : Plane) (p : Page) (c : Cause) : (s.fail st q p c).rxAns = s.rxAns := rfl
@[simp] theorem fail_ticks (st : FailStep) (q : Plane) (p : Page) (c : Cause) : (s.fail st q p c).ticks = s.ticks := rfl
@[simp] theorem fail_inputs (st : FailStep) (q : Plane) (p : Page) (c : Cause) : (s.fail st q p c).inputs = s.inputs := rfl
@[simp] theorem fail_bench (st : FailStep) (q : Plane) (p : Page) (c : Cause) : (s.fail st q p c).bench = s.bench := rfl
@[simp] theorem fail_trace (st : FailStep) (q : Plane) (p : Page) (c : Cause) : (s.fail st q p c).trace = s.trace ++ [.terminal (.failed st q p c)] := rfl
@[simp] theorem fail_result (st : FailStep) (q : Plane) (p : Page) (c : Cause) : (s.fail st q p c).result = .terminal (.failed st q p c) := rfl
@[simp] theorem fail_crcInit (st : FailStep) (q : Plane) (p : Page) (c : Cause) : (s.fail st q p c).crcInit = s.crcInit := rfl
@[simp] theorem fail_free (st : FailStep) (q : Plane) (p : Page) (c : Cause) : (s.fail st q p c).free = s.free := rfl

/-! ### `succeed`: terminal success (R218) -/

@[simp] theorem succeed_fsm : (s.succeed).fsm = .done := rfl
@[simp] theorem succeed_plane : (s.succeed).plane = s.plane := rfl
@[simp] theorem succeed_page : (s.succeed).page = s.page := rfl
@[simp] theorem succeed_sub : (s.succeed).sub = s.sub := rfl
@[simp] theorem succeed_attempt : (s.succeed).attempt = s.attempt := rfl
@[simp] theorem succeed_slot : (s.succeed).slot = s.slot := rfl
@[simp] theorem succeed_crcReg : (s.succeed).crcReg = s.crcReg := rfl
@[simp] theorem succeed_pageBuf : (s.succeed).pageBuf = s.pageBuf := rfl
@[simp] theorem succeed_pageLen : (s.succeed).pageLen = s.pageLen := rfl
@[simp] theorem succeed_pageCrc : (s.succeed).pageCrc = s.pageCrc := rfl
@[simp] theorem succeed_txBuf : (s.succeed).txBuf = s.txBuf := rfl
@[simp] theorem succeed_txLen : (s.succeed).txLen = s.txLen := rfl
@[simp] theorem succeed_rxBuf : (s.succeed).rxBuf = s.rxBuf := rfl
@[simp] theorem succeed_rxLen : (s.succeed).rxLen = s.rxLen := rfl
@[simp] theorem succeed_failStep : (s.succeed).failStep = s.failStep := rfl
@[simp] theorem succeed_failPlane : (s.succeed).failPlane = s.failPlane := rfl
@[simp] theorem succeed_failPage : (s.succeed).failPage = s.failPage := rfl
@[simp] theorem succeed_failCause : (s.succeed).failCause = s.failCause := rfl
@[simp] theorem succeed_lastCause : (s.succeed).lastCause = s.lastCause := rfl
@[simp] theorem succeed_lastCmd16 : (s.succeed).lastCmd16 = s.lastCmd16 := rfl
@[simp] theorem succeed_lastStatus : (s.succeed).lastStatus = s.lastStatus := rfl
@[simp] theorem succeed_lastPage : (s.succeed).lastPage = s.lastPage := rfl
@[simp] theorem succeed_lastSlot16 : (s.succeed).lastSlot16 = s.lastSlot16 := rfl
@[simp] theorem succeed_phase : (s.succeed).phase = .idle := rfl
@[simp] theorem succeed_body : (s.succeed).body = s.body := rfl
@[simp] theorem succeed_scope : (s.succeed).scope = s.scope := rfl
@[simp] theorem succeed_endLen : (s.succeed).endLen = s.endLen := rfl
@[simp] theorem succeed_img : (s.succeed).img = s.img := rfl
@[simp] theorem succeed_txAns : (s.succeed).txAns = s.txAns := rfl
@[simp] theorem succeed_rxAns : (s.succeed).rxAns = s.rxAns := rfl
@[simp] theorem succeed_ticks : (s.succeed).ticks = s.ticks := rfl
@[simp] theorem succeed_inputs : (s.succeed).inputs = s.inputs := rfl
@[simp] theorem succeed_bench : (s.succeed).bench = s.bench := rfl
@[simp] theorem succeed_trace : (s.succeed).trace = s.trace ++ [.terminal .done] := rfl
@[simp] theorem succeed_result : (s.succeed).result = .terminal .done := rfl
@[simp] theorem succeed_crcInit : (s.succeed).crcInit = s.crcInit := rfl
@[simp] theorem succeed_free : (s.succeed).free = s.free := rfl

/-! ### `openSession`: what an accepted SEND sets (R210) -/

@[simp] theorem openSession_fsm (o : Byte) : (s.openSession o).fsm = s.fsm := rfl
@[simp] theorem openSession_plane (o : Byte) : (s.openSession o).plane = 0 := rfl
@[simp] theorem openSession_page (o : Byte) : (s.openSession o).page = 0 := rfl
@[simp] theorem openSession_sub (o : Byte) : (s.openSession o).sub = 0 := rfl
@[simp] theorem openSession_attempt (o : Byte) : (s.openSession o).attempt = 0 := rfl
@[simp] theorem openSession_slot (o : Byte) : (s.openSession o).slot = slotOf o := rfl
@[simp] theorem openSession_crcReg (o : Byte) : (s.openSession o).crcReg = s.crcReg := rfl
@[simp] theorem openSession_pageBuf (o : Byte) : (s.openSession o).pageBuf = s.pageBuf := rfl
@[simp] theorem openSession_pageLen (o : Byte) : (s.openSession o).pageLen = s.pageLen := rfl
@[simp] theorem openSession_pageCrc (o : Byte) : (s.openSession o).pageCrc = s.pageCrc := rfl
@[simp] theorem openSession_txBuf (o : Byte) : (s.openSession o).txBuf = s.txBuf := rfl
@[simp] theorem openSession_txLen (o : Byte) : (s.openSession o).txLen = s.txLen := rfl
@[simp] theorem openSession_rxBuf (o : Byte) : (s.openSession o).rxBuf = s.rxBuf := rfl
@[simp] theorem openSession_rxLen (o : Byte) : (s.openSession o).rxLen = s.rxLen := rfl
@[simp] theorem openSession_failStep (o : Byte) : (s.openSession o).failStep = .none := rfl
@[simp] theorem openSession_failPlane (o : Byte) : (s.openSession o).failPlane = 0 := rfl
@[simp] theorem openSession_failPage (o : Byte) : (s.openSession o).failPage = 0 := rfl
@[simp] theorem openSession_failCause (o : Byte) : (s.openSession o).failCause = .none := rfl
@[simp] theorem openSession_lastCause (o : Byte) : (s.openSession o).lastCause = .none := rfl
@[simp] theorem openSession_lastCmd16 (o : Byte) : (s.openSession o).lastCmd16 = 0 := rfl
@[simp] theorem openSession_lastStatus (o : Byte) : (s.openSession o).lastStatus = 0 := rfl
@[simp] theorem openSession_lastPage (o : Byte) : (s.openSession o).lastPage = 0 := rfl
@[simp] theorem openSession_lastSlot16 (o : Byte) : (s.openSession o).lastSlot16 = 0 := rfl
@[simp] theorem openSession_phase (o : Byte) : (s.openSession o).phase = s.phase := rfl
@[simp] theorem openSession_body (o : Byte) : (s.openSession o).body = s.body := rfl
@[simp] theorem openSession_scope (o : Byte) : (s.openSession o).scope = s.scope := rfl
@[simp] theorem openSession_endLen (o : Byte) : (s.openSession o).endLen = s.endLen := rfl
@[simp] theorem openSession_img (o : Byte) : (s.openSession o).img = s.img := rfl
@[simp] theorem openSession_txAns (o : Byte) : (s.openSession o).txAns = s.txAns := rfl
@[simp] theorem openSession_rxAns (o : Byte) : (s.openSession o).rxAns = s.rxAns := rfl
@[simp] theorem openSession_ticks (o : Byte) : (s.openSession o).ticks = s.ticks := rfl
@[simp] theorem openSession_inputs (o : Byte) : (s.openSession o).inputs = s.inputs := rfl
@[simp] theorem openSession_bench (o : Byte) : (s.openSession o).bench = s.bench := rfl
@[simp] theorem openSession_trace (o : Byte) : (s.openSession o).trace = s.trace := rfl
@[simp] theorem openSession_result (o : Byte) : (s.openSession o).result = s.result := rfl
@[simp] theorem openSession_crcInit (o : Byte) : (s.openSession o).crcInit = s.crcInit := rfl
@[simp] theorem openSession_free (o : Byte) : (s.openSession o).free = s.free := rfl

/-! ### `enterBody`: a body alone begins (R213 to R215) -/

@[simp] theorem enterBody_fsm (b : Body) : (s.enterBody b).fsm = s.fsm := rfl
@[simp] theorem enterBody_plane (b : Body) : (s.enterBody b).plane = s.plane := rfl
@[simp] theorem enterBody_page (b : Body) : (s.enterBody b).page = s.page := rfl
@[simp] theorem enterBody_sub (b : Body) : (s.enterBody b).sub = s.sub := rfl
@[simp] theorem enterBody_attempt (b : Body) : (s.enterBody b).attempt = s.attempt := rfl
@[simp] theorem enterBody_slot (b : Body) : (s.enterBody b).slot = s.slot := rfl
@[simp] theorem enterBody_crcReg (b : Body) : (s.enterBody b).crcReg = s.crcReg := rfl
@[simp] theorem enterBody_pageBuf (b : Body) : (s.enterBody b).pageBuf = s.pageBuf := rfl
@[simp] theorem enterBody_pageLen (b : Body) : (s.enterBody b).pageLen = s.pageLen := rfl
@[simp] theorem enterBody_pageCrc (b : Body) : (s.enterBody b).pageCrc = s.pageCrc := rfl
@[simp] theorem enterBody_txBuf (b : Body) : (s.enterBody b).txBuf = s.txBuf := rfl
@[simp] theorem enterBody_txLen (b : Body) : (s.enterBody b).txLen = s.txLen := rfl
@[simp] theorem enterBody_rxBuf (b : Body) : (s.enterBody b).rxBuf = s.rxBuf := rfl
@[simp] theorem enterBody_rxLen (b : Body) : (s.enterBody b).rxLen = s.rxLen := rfl
@[simp] theorem enterBody_failStep (b : Body) : (s.enterBody b).failStep = s.failStep := rfl
@[simp] theorem enterBody_failPlane (b : Body) : (s.enterBody b).failPlane = s.failPlane := rfl
@[simp] theorem enterBody_failPage (b : Body) : (s.enterBody b).failPage = s.failPage := rfl
@[simp] theorem enterBody_failCause (b : Body) : (s.enterBody b).failCause = s.failCause := rfl
@[simp] theorem enterBody_lastCause (b : Body) : (s.enterBody b).lastCause = s.lastCause := rfl
@[simp] theorem enterBody_lastCmd16 (b : Body) : (s.enterBody b).lastCmd16 = s.lastCmd16 := rfl
@[simp] theorem enterBody_lastStatus (b : Body) : (s.enterBody b).lastStatus = s.lastStatus := rfl
@[simp] theorem enterBody_lastPage (b : Body) : (s.enterBody b).lastPage = s.lastPage := rfl
@[simp] theorem enterBody_lastSlot16 (b : Body) : (s.enterBody b).lastSlot16 = s.lastSlot16 := rfl
@[simp] theorem enterBody_phase (b : Body) : (s.enterBody b).phase = firstPhase b := rfl
@[simp] theorem enterBody_body (b : Body) : (s.enterBody b).body = b := rfl
@[simp] theorem enterBody_scope (b : Body) : (s.enterBody b).scope = .body := rfl
@[simp] theorem enterBody_endLen (b : Body) : (s.enterBody b).endLen = s.endLen := rfl
@[simp] theorem enterBody_img (b : Body) : (s.enterBody b).img = s.img := rfl
@[simp] theorem enterBody_txAns (b : Body) : (s.enterBody b).txAns = s.txAns := rfl
@[simp] theorem enterBody_rxAns (b : Body) : (s.enterBody b).rxAns = s.rxAns := rfl
@[simp] theorem enterBody_ticks (b : Body) : (s.enterBody b).ticks = s.ticks := rfl
@[simp] theorem enterBody_inputs (b : Body) : (s.enterBody b).inputs = s.inputs := rfl
@[simp] theorem enterBody_bench (b : Body) : (s.enterBody b).bench = s.bench := rfl
@[simp] theorem enterBody_trace (b : Body) : (s.enterBody b).trace = s.trace := rfl
@[simp] theorem enterBody_result (b : Body) : (s.enterBody b).result = s.result := rfl
@[simp] theorem enterBody_crcInit (b : Body) : (s.enterBody b).crcInit = s.crcInit := rfl
@[simp] theorem enterBody_free (b : Body) : (s.enterBody b).free = s.free := rfl

/-! ### `enterRetry`: RETRY begins (R212) -/

@[simp] theorem enterRetry_fsm (b : Body) (sc : Scope) : (s.enterRetry b sc).fsm = s.fsm := rfl
@[simp] theorem enterRetry_plane (b : Body) (sc : Scope) : (s.enterRetry b sc).plane = s.plane := rfl
@[simp] theorem enterRetry_page (b : Body) (sc : Scope) : (s.enterRetry b sc).page = s.page := rfl
@[simp] theorem enterRetry_sub (b : Body) (sc : Scope) : (s.enterRetry b sc).sub = s.sub := rfl
@[simp] theorem enterRetry_attempt (b : Body) (sc : Scope) : (s.enterRetry b sc).attempt = 1 := rfl
@[simp] theorem enterRetry_slot (b : Body) (sc : Scope) : (s.enterRetry b sc).slot = s.slot := rfl
@[simp] theorem enterRetry_crcReg (b : Body) (sc : Scope) : (s.enterRetry b sc).crcReg = s.crcReg := rfl
@[simp] theorem enterRetry_pageBuf (b : Body) (sc : Scope) : (s.enterRetry b sc).pageBuf = s.pageBuf := rfl
@[simp] theorem enterRetry_pageLen (b : Body) (sc : Scope) : (s.enterRetry b sc).pageLen = s.pageLen := rfl
@[simp] theorem enterRetry_pageCrc (b : Body) (sc : Scope) : (s.enterRetry b sc).pageCrc = s.pageCrc := rfl
@[simp] theorem enterRetry_txBuf (b : Body) (sc : Scope) : (s.enterRetry b sc).txBuf = s.txBuf := rfl
@[simp] theorem enterRetry_txLen (b : Body) (sc : Scope) : (s.enterRetry b sc).txLen = s.txLen := rfl
@[simp] theorem enterRetry_rxBuf (b : Body) (sc : Scope) : (s.enterRetry b sc).rxBuf = s.rxBuf := rfl
@[simp] theorem enterRetry_rxLen (b : Body) (sc : Scope) : (s.enterRetry b sc).rxLen = s.rxLen := rfl
@[simp] theorem enterRetry_failStep (b : Body) (sc : Scope) : (s.enterRetry b sc).failStep = s.failStep := rfl
@[simp] theorem enterRetry_failPlane (b : Body) (sc : Scope) : (s.enterRetry b sc).failPlane = s.failPlane := rfl
@[simp] theorem enterRetry_failPage (b : Body) (sc : Scope) : (s.enterRetry b sc).failPage = s.failPage := rfl
@[simp] theorem enterRetry_failCause (b : Body) (sc : Scope) : (s.enterRetry b sc).failCause = s.failCause := rfl
@[simp] theorem enterRetry_lastCause (b : Body) (sc : Scope) : (s.enterRetry b sc).lastCause = s.lastCause := rfl
@[simp] theorem enterRetry_lastCmd16 (b : Body) (sc : Scope) : (s.enterRetry b sc).lastCmd16 = s.lastCmd16 := rfl
@[simp] theorem enterRetry_lastStatus (b : Body) (sc : Scope) : (s.enterRetry b sc).lastStatus = s.lastStatus := rfl
@[simp] theorem enterRetry_lastPage (b : Body) (sc : Scope) : (s.enterRetry b sc).lastPage = s.lastPage := rfl
@[simp] theorem enterRetry_lastSlot16 (b : Body) (sc : Scope) : (s.enterRetry b sc).lastSlot16 = s.lastSlot16 := rfl
@[simp] theorem enterRetry_phase (b : Body) (sc : Scope) : (s.enterRetry b sc).phase = firstPhase b := rfl
@[simp] theorem enterRetry_body (b : Body) (sc : Scope) : (s.enterRetry b sc).body = b := rfl
@[simp] theorem enterRetry_scope (b : Body) (sc : Scope) : (s.enterRetry b sc).scope = sc := rfl
@[simp] theorem enterRetry_endLen (b : Body) (sc : Scope) : (s.enterRetry b sc).endLen = s.endLen := rfl
@[simp] theorem enterRetry_img (b : Body) (sc : Scope) : (s.enterRetry b sc).img = s.img := rfl
@[simp] theorem enterRetry_txAns (b : Body) (sc : Scope) : (s.enterRetry b sc).txAns = s.txAns := rfl
@[simp] theorem enterRetry_rxAns (b : Body) (sc : Scope) : (s.enterRetry b sc).rxAns = s.rxAns := rfl
@[simp] theorem enterRetry_ticks (b : Body) (sc : Scope) : (s.enterRetry b sc).ticks = s.ticks := rfl
@[simp] theorem enterRetry_inputs (b : Body) (sc : Scope) : (s.enterRetry b sc).inputs = s.inputs := rfl
@[simp] theorem enterRetry_bench (b : Body) (sc : Scope) : (s.enterRetry b sc).bench = s.bench := rfl
@[simp] theorem enterRetry_trace (b : Body) (sc : Scope) : (s.enterRetry b sc).trace = s.trace := rfl
@[simp] theorem enterRetry_result (b : Body) (sc : Scope) : (s.enterRetry b sc).result = s.result := rfl
@[simp] theorem enterRetry_crcInit (b : Body) (sc : Scope) : (s.enterRetry b sc).crcInit = s.crcInit := rfl
@[simp] theorem enterRetry_free (b : Body) (sc : Scope) : (s.enterRetry b sc).free = s.free := rfl

/-! ### `enterPlane`: RUN begins a plane (R216) -/

@[simp] theorem enterPlane_fsm (q : Plane) : (s.enterPlane q).fsm = .starting := rfl
@[simp] theorem enterPlane_plane (q : Plane) : (s.enterPlane q).plane = q := rfl
@[simp] theorem enterPlane_page (q : Plane) : (s.enterPlane q).page = 0 := rfl
@[simp] theorem enterPlane_sub (q : Plane) : (s.enterPlane q).sub = s.sub := rfl
@[simp] theorem enterPlane_attempt (q : Plane) : (s.enterPlane q).attempt = 1 := rfl
@[simp] theorem enterPlane_slot (q : Plane) : (s.enterPlane q).slot = s.slot := rfl
@[simp] theorem enterPlane_crcReg (q : Plane) : (s.enterPlane q).crcReg = s.crcReg := rfl
@[simp] theorem enterPlane_pageBuf (q : Plane) : (s.enterPlane q).pageBuf = s.pageBuf := rfl
@[simp] theorem enterPlane_pageLen (q : Plane) : (s.enterPlane q).pageLen = s.pageLen := rfl
@[simp] theorem enterPlane_pageCrc (q : Plane) : (s.enterPlane q).pageCrc = s.pageCrc := rfl
@[simp] theorem enterPlane_txBuf (q : Plane) : (s.enterPlane q).txBuf = s.txBuf := rfl
@[simp] theorem enterPlane_txLen (q : Plane) : (s.enterPlane q).txLen = s.txLen := rfl
@[simp] theorem enterPlane_rxBuf (q : Plane) : (s.enterPlane q).rxBuf = s.rxBuf := rfl
@[simp] theorem enterPlane_rxLen (q : Plane) : (s.enterPlane q).rxLen = s.rxLen := rfl
@[simp] theorem enterPlane_failStep (q : Plane) : (s.enterPlane q).failStep = s.failStep := rfl
@[simp] theorem enterPlane_failPlane (q : Plane) : (s.enterPlane q).failPlane = s.failPlane := rfl
@[simp] theorem enterPlane_failPage (q : Plane) : (s.enterPlane q).failPage = s.failPage := rfl
@[simp] theorem enterPlane_failCause (q : Plane) : (s.enterPlane q).failCause = s.failCause := rfl
@[simp] theorem enterPlane_lastCause (q : Plane) : (s.enterPlane q).lastCause = s.lastCause := rfl
@[simp] theorem enterPlane_lastCmd16 (q : Plane) : (s.enterPlane q).lastCmd16 = s.lastCmd16 := rfl
@[simp] theorem enterPlane_lastStatus (q : Plane) : (s.enterPlane q).lastStatus = s.lastStatus := rfl
@[simp] theorem enterPlane_lastPage (q : Plane) : (s.enterPlane q).lastPage = s.lastPage := rfl
@[simp] theorem enterPlane_lastSlot16 (q : Plane) : (s.enterPlane q).lastSlot16 = s.lastSlot16 := rfl
@[simp] theorem enterPlane_phase (q : Plane) : (s.enterPlane q).phase = .enc [] := rfl
@[simp] theorem enterPlane_body (q : Plane) : (s.enterPlane q).body = .start := rfl
@[simp] theorem enterPlane_scope (q : Plane) : (s.enterPlane q).scope = .run := rfl
@[simp] theorem enterPlane_endLen (q : Plane) : (s.enterPlane q).endLen = s.endLen := rfl
@[simp] theorem enterPlane_img (q : Plane) : (s.enterPlane q).img = s.img := rfl
@[simp] theorem enterPlane_txAns (q : Plane) : (s.enterPlane q).txAns = s.txAns := rfl
@[simp] theorem enterPlane_rxAns (q : Plane) : (s.enterPlane q).rxAns = s.rxAns := rfl
@[simp] theorem enterPlane_ticks (q : Plane) : (s.enterPlane q).ticks = s.ticks := rfl
@[simp] theorem enterPlane_inputs (q : Plane) : (s.enterPlane q).inputs = s.inputs := rfl
@[simp] theorem enterPlane_bench (q : Plane) : (s.enterPlane q).bench = s.bench := rfl
@[simp] theorem enterPlane_trace (q : Plane) : (s.enterPlane q).trace = s.trace := rfl
@[simp] theorem enterPlane_result (q : Plane) : (s.enterPlane q).result = s.result := rfl
@[simp] theorem enterPlane_crcInit (q : Plane) : (s.enterPlane q).crcInit = s.crcInit := rfl
@[simp] theorem enterPlane_free (q : Plane) : (s.enterPlane q).free = s.free := rfl

/-! ### `enterPage`: RUN begins a page (R216) -/

@[simp] theorem enterPage_fsm (p : Page) : (s.enterPage p).fsm = .sendingPage := rfl
@[simp] theorem enterPage_plane (p : Page) : (s.enterPage p).plane = s.plane := rfl
@[simp] theorem enterPage_page (p : Page) : (s.enterPage p).page = p := rfl
@[simp] theorem enterPage_sub (p : Page) : (s.enterPage p).sub = s.sub := rfl
@[simp] theorem enterPage_attempt (p : Page) : (s.enterPage p).attempt = 1 := rfl
@[simp] theorem enterPage_slot (p : Page) : (s.enterPage p).slot = s.slot := rfl
@[simp] theorem enterPage_crcReg (p : Page) : (s.enterPage p).crcReg = s.crcReg := rfl
@[simp] theorem enterPage_pageBuf (p : Page) : (s.enterPage p).pageBuf = s.pageBuf := rfl
@[simp] theorem enterPage_pageLen (p : Page) : (s.enterPage p).pageLen = s.pageLen := rfl
@[simp] theorem enterPage_pageCrc (p : Page) : (s.enterPage p).pageCrc = s.pageCrc := rfl
@[simp] theorem enterPage_txBuf (p : Page) : (s.enterPage p).txBuf = s.txBuf := rfl
@[simp] theorem enterPage_txLen (p : Page) : (s.enterPage p).txLen = s.txLen := rfl
@[simp] theorem enterPage_rxBuf (p : Page) : (s.enterPage p).rxBuf = s.rxBuf := rfl
@[simp] theorem enterPage_rxLen (p : Page) : (s.enterPage p).rxLen = s.rxLen := rfl
@[simp] theorem enterPage_failStep (p : Page) : (s.enterPage p).failStep = s.failStep := rfl
@[simp] theorem enterPage_failPlane (p : Page) : (s.enterPage p).failPlane = s.failPlane := rfl
@[simp] theorem enterPage_failPage (p : Page) : (s.enterPage p).failPage = s.failPage := rfl
@[simp] theorem enterPage_failCause (p : Page) : (s.enterPage p).failCause = s.failCause := rfl
@[simp] theorem enterPage_lastCause (p : Page) : (s.enterPage p).lastCause = s.lastCause := rfl
@[simp] theorem enterPage_lastCmd16 (p : Page) : (s.enterPage p).lastCmd16 = s.lastCmd16 := rfl
@[simp] theorem enterPage_lastStatus (p : Page) : (s.enterPage p).lastStatus = s.lastStatus := rfl
@[simp] theorem enterPage_lastPage (p : Page) : (s.enterPage p).lastPage = s.lastPage := rfl
@[simp] theorem enterPage_lastSlot16 (p : Page) : (s.enterPage p).lastSlot16 = s.lastSlot16 := rfl
@[simp] theorem enterPage_phase (p : Page) : (s.enterPage p).phase = .segPage := rfl
@[simp] theorem enterPage_body (p : Page) : (s.enterPage p).body = .page := rfl
@[simp] theorem enterPage_scope (p : Page) : (s.enterPage p).scope = .run := rfl
@[simp] theorem enterPage_endLen (p : Page) : (s.enterPage p).endLen = s.endLen := rfl
@[simp] theorem enterPage_img (p : Page) : (s.enterPage p).img = s.img := rfl
@[simp] theorem enterPage_txAns (p : Page) : (s.enterPage p).txAns = s.txAns := rfl
@[simp] theorem enterPage_rxAns (p : Page) : (s.enterPage p).rxAns = s.rxAns := rfl
@[simp] theorem enterPage_ticks (p : Page) : (s.enterPage p).ticks = s.ticks := rfl
@[simp] theorem enterPage_inputs (p : Page) : (s.enterPage p).inputs = s.inputs := rfl
@[simp] theorem enterPage_bench (p : Page) : (s.enterPage p).bench = s.bench := rfl
@[simp] theorem enterPage_trace (p : Page) : (s.enterPage p).trace = s.trace := rfl
@[simp] theorem enterPage_result (p : Page) : (s.enterPage p).result = s.result := rfl
@[simp] theorem enterPage_crcInit (p : Page) : (s.enterPage p).crcInit = s.crcInit := rfl
@[simp] theorem enterPage_free (p : Page) : (s.enterPage p).free = s.free := rfl

/-! ### `enterEnd`: RUN begins the end step (R216) -/

@[simp] theorem enterEnd_fsm : (s.enterEnd).fsm = .ending := rfl
@[simp] theorem enterEnd_plane : (s.enterEnd).plane = s.plane := rfl
@[simp] theorem enterEnd_page : (s.enterEnd).page = 0 := rfl
@[simp] theorem enterEnd_sub : (s.enterEnd).sub = s.sub := rfl
@[simp] theorem enterEnd_attempt : (s.enterEnd).attempt = 1 := rfl
@[simp] theorem enterEnd_slot : (s.enterEnd).slot = s.slot := rfl
@[simp] theorem enterEnd_crcReg : (s.enterEnd).crcReg = s.crcReg := rfl
@[simp] theorem enterEnd_pageBuf : (s.enterEnd).pageBuf = s.pageBuf := rfl
@[simp] theorem enterEnd_pageLen : (s.enterEnd).pageLen = s.pageLen := rfl
@[simp] theorem enterEnd_pageCrc : (s.enterEnd).pageCrc = s.pageCrc := rfl
@[simp] theorem enterEnd_txBuf : (s.enterEnd).txBuf = s.txBuf := rfl
@[simp] theorem enterEnd_txLen : (s.enterEnd).txLen = s.txLen := rfl
@[simp] theorem enterEnd_rxBuf : (s.enterEnd).rxBuf = s.rxBuf := rfl
@[simp] theorem enterEnd_rxLen : (s.enterEnd).rxLen = s.rxLen := rfl
@[simp] theorem enterEnd_failStep : (s.enterEnd).failStep = s.failStep := rfl
@[simp] theorem enterEnd_failPlane : (s.enterEnd).failPlane = s.failPlane := rfl
@[simp] theorem enterEnd_failPage : (s.enterEnd).failPage = s.failPage := rfl
@[simp] theorem enterEnd_failCause : (s.enterEnd).failCause = s.failCause := rfl
@[simp] theorem enterEnd_lastCause : (s.enterEnd).lastCause = s.lastCause := rfl
@[simp] theorem enterEnd_lastCmd16 : (s.enterEnd).lastCmd16 = s.lastCmd16 := rfl
@[simp] theorem enterEnd_lastStatus : (s.enterEnd).lastStatus = s.lastStatus := rfl
@[simp] theorem enterEnd_lastPage : (s.enterEnd).lastPage = s.lastPage := rfl
@[simp] theorem enterEnd_lastSlot16 : (s.enterEnd).lastSlot16 = s.lastSlot16 := rfl
@[simp] theorem enterEnd_phase : (s.enterEnd).phase = .enc [] := rfl
@[simp] theorem enterEnd_body : (s.enterEnd).body = .finish := rfl
@[simp] theorem enterEnd_scope : (s.enterEnd).scope = .run := rfl
@[simp] theorem enterEnd_endLen : (s.enterEnd).endLen = s.endLen := rfl
@[simp] theorem enterEnd_img : (s.enterEnd).img = s.img := rfl
@[simp] theorem enterEnd_txAns : (s.enterEnd).txAns = s.txAns := rfl
@[simp] theorem enterEnd_rxAns : (s.enterEnd).rxAns = s.rxAns := rfl
@[simp] theorem enterEnd_ticks : (s.enterEnd).ticks = s.ticks := rfl
@[simp] theorem enterEnd_inputs : (s.enterEnd).inputs = s.inputs := rfl
@[simp] theorem enterEnd_bench : (s.enterEnd).bench = s.bench := rfl
@[simp] theorem enterEnd_trace : (s.enterEnd).trace = s.trace := rfl
@[simp] theorem enterEnd_result : (s.enterEnd).result = s.result := rfl
@[simp] theorem enterEnd_crcInit : (s.enterEnd).crcInit = s.crcInit := rfl
@[simp] theorem enterEnd_free : (s.enterEnd).free = s.free := rfl

/-! ### `nextInput`: using up what the host presents (log 14) -/

@[simp] theorem nextInput_fsm : (s.nextInput).fsm = s.fsm := rfl
@[simp] theorem nextInput_plane : (s.nextInput).plane = s.plane := rfl
@[simp] theorem nextInput_page : (s.nextInput).page = s.page := rfl
@[simp] theorem nextInput_sub : (s.nextInput).sub = s.sub := rfl
@[simp] theorem nextInput_attempt : (s.nextInput).attempt = s.attempt := rfl
@[simp] theorem nextInput_slot : (s.nextInput).slot = s.slot := rfl
@[simp] theorem nextInput_crcReg : (s.nextInput).crcReg = s.crcReg := rfl
@[simp] theorem nextInput_pageBuf : (s.nextInput).pageBuf = s.pageBuf := rfl
@[simp] theorem nextInput_pageLen : (s.nextInput).pageLen = s.pageLen := rfl
@[simp] theorem nextInput_pageCrc : (s.nextInput).pageCrc = s.pageCrc := rfl
@[simp] theorem nextInput_txBuf : (s.nextInput).txBuf = s.txBuf := rfl
@[simp] theorem nextInput_txLen : (s.nextInput).txLen = s.txLen := rfl
@[simp] theorem nextInput_rxBuf : (s.nextInput).rxBuf = s.rxBuf := rfl
@[simp] theorem nextInput_rxLen : (s.nextInput).rxLen = s.rxLen := rfl
@[simp] theorem nextInput_failStep : (s.nextInput).failStep = s.failStep := rfl
@[simp] theorem nextInput_failPlane : (s.nextInput).failPlane = s.failPlane := rfl
@[simp] theorem nextInput_failPage : (s.nextInput).failPage = s.failPage := rfl
@[simp] theorem nextInput_failCause : (s.nextInput).failCause = s.failCause := rfl
@[simp] theorem nextInput_lastCause : (s.nextInput).lastCause = s.lastCause := rfl
@[simp] theorem nextInput_lastCmd16 : (s.nextInput).lastCmd16 = s.lastCmd16 := rfl
@[simp] theorem nextInput_lastStatus : (s.nextInput).lastStatus = s.lastStatus := rfl
@[simp] theorem nextInput_lastPage : (s.nextInput).lastPage = s.lastPage := rfl
@[simp] theorem nextInput_lastSlot16 : (s.nextInput).lastSlot16 = s.lastSlot16 := rfl
@[simp] theorem nextInput_phase : (s.nextInput).phase = s.phase := rfl
@[simp] theorem nextInput_body : (s.nextInput).body = s.body := rfl
@[simp] theorem nextInput_scope : (s.nextInput).scope = s.scope := rfl
@[simp] theorem nextInput_endLen : (s.nextInput).endLen = s.endLen := rfl
@[simp] theorem nextInput_img : (s.nextInput).img = s.img := rfl
@[simp] theorem nextInput_txAns : (s.nextInput).txAns = s.txAns := rfl
@[simp] theorem nextInput_rxAns : (s.nextInput).rxAns = s.rxAns := rfl
@[simp] theorem nextInput_ticks : (s.nextInput).ticks = s.ticks := rfl
@[simp] theorem nextInput_inputs : (s.nextInput).inputs = s.inputs.tail := rfl
@[simp] theorem nextInput_bench : (s.nextInput).bench = s.bench := rfl
@[simp] theorem nextInput_trace : (s.nextInput).trace = s.trace := rfl
@[simp] theorem nextInput_result : (s.nextInput).result = s.result := rfl
@[simp] theorem nextInput_crcInit : (s.nextInput).crcInit = s.crcInit := rfl
@[simp] theorem nextInput_free : (s.nextInput).free = s.free := rfl

/-! ### `toReset`: RESET (R290) -/

@[simp] theorem toReset_fsm : (s.toReset).fsm = State.reset.fsm := rfl
@[simp] theorem toReset_plane : (s.toReset).plane = State.reset.plane := rfl
@[simp] theorem toReset_page : (s.toReset).page = State.reset.page := rfl
@[simp] theorem toReset_sub : (s.toReset).sub = State.reset.sub := rfl
@[simp] theorem toReset_attempt : (s.toReset).attempt = State.reset.attempt := rfl
@[simp] theorem toReset_slot : (s.toReset).slot = State.reset.slot := rfl
@[simp] theorem toReset_crcReg : (s.toReset).crcReg = State.reset.crcReg := rfl
@[simp] theorem toReset_pageBuf : (s.toReset).pageBuf = State.reset.pageBuf := rfl
@[simp] theorem toReset_pageLen : (s.toReset).pageLen = State.reset.pageLen := rfl
@[simp] theorem toReset_pageCrc : (s.toReset).pageCrc = State.reset.pageCrc := rfl
@[simp] theorem toReset_txBuf : (s.toReset).txBuf = State.reset.txBuf := rfl
@[simp] theorem toReset_txLen : (s.toReset).txLen = State.reset.txLen := rfl
@[simp] theorem toReset_rxBuf : (s.toReset).rxBuf = State.reset.rxBuf := rfl
@[simp] theorem toReset_rxLen : (s.toReset).rxLen = State.reset.rxLen := rfl
@[simp] theorem toReset_failStep : (s.toReset).failStep = State.reset.failStep := rfl
@[simp] theorem toReset_failPlane : (s.toReset).failPlane = State.reset.failPlane := rfl
@[simp] theorem toReset_failPage : (s.toReset).failPage = State.reset.failPage := rfl
@[simp] theorem toReset_failCause : (s.toReset).failCause = State.reset.failCause := rfl
@[simp] theorem toReset_lastCause : (s.toReset).lastCause = State.reset.lastCause := rfl
@[simp] theorem toReset_lastCmd16 : (s.toReset).lastCmd16 = State.reset.lastCmd16 := rfl
@[simp] theorem toReset_lastStatus : (s.toReset).lastStatus = State.reset.lastStatus := rfl
@[simp] theorem toReset_lastPage : (s.toReset).lastPage = State.reset.lastPage := rfl
@[simp] theorem toReset_lastSlot16 : (s.toReset).lastSlot16 = State.reset.lastSlot16 := rfl
@[simp] theorem toReset_phase : (s.toReset).phase = State.reset.phase := rfl
@[simp] theorem toReset_body : (s.toReset).body = State.reset.body := rfl
@[simp] theorem toReset_scope : (s.toReset).scope = State.reset.scope := rfl
@[simp] theorem toReset_endLen : (s.toReset).endLen = s.endLen := rfl
@[simp] theorem toReset_img : (s.toReset).img = s.img := rfl
@[simp] theorem toReset_txAns : (s.toReset).txAns = s.txAns := rfl
@[simp] theorem toReset_rxAns : (s.toReset).rxAns = s.rxAns := rfl
@[simp] theorem toReset_ticks : (s.toReset).ticks = s.ticks := rfl
@[simp] theorem toReset_inputs : (s.toReset).inputs = s.inputs := rfl
@[simp] theorem toReset_bench : (s.toReset).bench = s.bench := rfl
@[simp] theorem toReset_trace : (s.toReset).trace = s.trace := rfl
@[simp] theorem toReset_result : (s.toReset).result = State.reset.result := rfl
@[simp] theorem toReset_crcInit : (s.toReset).crcInit = State.reset.crcInit := rfl
@[simp] theorem toReset_free : (s.toReset).free = s.free := rfl

/-! ### `noteStartReply`: the last-reply registers after a decode (R161, R167) -/

@[simp] theorem noteStartReply_err (e : DecodeErr) : s.noteStartReply (.err e) = s := rfl
@[simp] theorem noteStartReply_fsm (r : DecodeResult StartReplyFields) : (s.noteStartReply r).fsm = s.fsm := by cases r <;> rfl
@[simp] theorem noteStartReply_plane (r : DecodeResult StartReplyFields) : (s.noteStartReply r).plane = s.plane := by cases r <;> rfl
@[simp] theorem noteStartReply_page (r : DecodeResult StartReplyFields) : (s.noteStartReply r).page = s.page := by cases r <;> rfl
@[simp] theorem noteStartReply_sub (r : DecodeResult StartReplyFields) : (s.noteStartReply r).sub = s.sub := by cases r <;> rfl
@[simp] theorem noteStartReply_attempt (r : DecodeResult StartReplyFields) : (s.noteStartReply r).attempt = s.attempt := by cases r <;> rfl
@[simp] theorem noteStartReply_slot (r : DecodeResult StartReplyFields) : (s.noteStartReply r).slot = s.slot := by cases r <;> rfl
@[simp] theorem noteStartReply_crcReg (r : DecodeResult StartReplyFields) : (s.noteStartReply r).crcReg = s.crcReg := by cases r <;> rfl
@[simp] theorem noteStartReply_pageBuf (r : DecodeResult StartReplyFields) : (s.noteStartReply r).pageBuf = s.pageBuf := by cases r <;> rfl
@[simp] theorem noteStartReply_pageLen (r : DecodeResult StartReplyFields) : (s.noteStartReply r).pageLen = s.pageLen := by cases r <;> rfl
@[simp] theorem noteStartReply_pageCrc (r : DecodeResult StartReplyFields) : (s.noteStartReply r).pageCrc = s.pageCrc := by cases r <;> rfl
@[simp] theorem noteStartReply_txBuf (r : DecodeResult StartReplyFields) : (s.noteStartReply r).txBuf = s.txBuf := by cases r <;> rfl
@[simp] theorem noteStartReply_txLen (r : DecodeResult StartReplyFields) : (s.noteStartReply r).txLen = s.txLen := by cases r <;> rfl
@[simp] theorem noteStartReply_rxBuf (r : DecodeResult StartReplyFields) : (s.noteStartReply r).rxBuf = s.rxBuf := by cases r <;> rfl
@[simp] theorem noteStartReply_rxLen (r : DecodeResult StartReplyFields) : (s.noteStartReply r).rxLen = s.rxLen := by cases r <;> rfl
@[simp] theorem noteStartReply_failStep (r : DecodeResult StartReplyFields) : (s.noteStartReply r).failStep = s.failStep := by cases r <;> rfl
@[simp] theorem noteStartReply_failPlane (r : DecodeResult StartReplyFields) : (s.noteStartReply r).failPlane = s.failPlane := by cases r <;> rfl
@[simp] theorem noteStartReply_failPage (r : DecodeResult StartReplyFields) : (s.noteStartReply r).failPage = s.failPage := by cases r <;> rfl
@[simp] theorem noteStartReply_failCause (r : DecodeResult StartReplyFields) : (s.noteStartReply r).failCause = s.failCause := by cases r <;> rfl
@[simp] theorem noteStartReply_lastCause (r : DecodeResult StartReplyFields) : (s.noteStartReply r).lastCause = s.lastCause := by cases r <;> rfl
@[simp] theorem noteStartReply_ok_lastCmd16 (f : StartReplyFields) : (s.noteStartReply (.ok f)).lastCmd16 = f.command16 := rfl
@[simp] theorem noteStartReply_ok_lastStatus (f : StartReplyFields) : (s.noteStartReply (.ok f)).lastStatus = f.status8 := rfl
@[simp] theorem noteStartReply_lastPage (r : DecodeResult StartReplyFields) : (s.noteStartReply r).lastPage = s.lastPage := by cases r <;> rfl
@[simp] theorem noteStartReply_lastSlot16 (r : DecodeResult StartReplyFields) : (s.noteStartReply r).lastSlot16 = s.lastSlot16 := by cases r <;> rfl
@[simp] theorem noteStartReply_phase (r : DecodeResult StartReplyFields) : (s.noteStartReply r).phase = s.phase := by cases r <;> rfl
@[simp] theorem noteStartReply_body (r : DecodeResult StartReplyFields) : (s.noteStartReply r).body = s.body := by cases r <;> rfl
@[simp] theorem noteStartReply_scope (r : DecodeResult StartReplyFields) : (s.noteStartReply r).scope = s.scope := by cases r <;> rfl
@[simp] theorem noteStartReply_endLen (r : DecodeResult StartReplyFields) : (s.noteStartReply r).endLen = s.endLen := by cases r <;> rfl
@[simp] theorem noteStartReply_img (r : DecodeResult StartReplyFields) : (s.noteStartReply r).img = s.img := by cases r <;> rfl
@[simp] theorem noteStartReply_txAns (r : DecodeResult StartReplyFields) : (s.noteStartReply r).txAns = s.txAns := by cases r <;> rfl
@[simp] theorem noteStartReply_rxAns (r : DecodeResult StartReplyFields) : (s.noteStartReply r).rxAns = s.rxAns := by cases r <;> rfl
@[simp] theorem noteStartReply_ticks (r : DecodeResult StartReplyFields) : (s.noteStartReply r).ticks = s.ticks := by cases r <;> rfl
@[simp] theorem noteStartReply_inputs (r : DecodeResult StartReplyFields) : (s.noteStartReply r).inputs = s.inputs := by cases r <;> rfl
@[simp] theorem noteStartReply_bench (r : DecodeResult StartReplyFields) : (s.noteStartReply r).bench = s.bench := by cases r <;> rfl
@[simp] theorem noteStartReply_trace (r : DecodeResult StartReplyFields) : (s.noteStartReply r).trace = s.trace := by cases r <;> rfl
@[simp] theorem noteStartReply_result (r : DecodeResult StartReplyFields) : (s.noteStartReply r).result = s.result := by cases r <;> rfl
@[simp] theorem noteStartReply_crcInit (r : DecodeResult StartReplyFields) : (s.noteStartReply r).crcInit = s.crcInit := by cases r <;> rfl
@[simp] theorem noteStartReply_free (r : DecodeResult StartReplyFields) : (s.noteStartReply r).free = s.free := by cases r <;> rfl

/-! ### `noteDataReply`: the last-reply registers after a decode (R162, R167) -/

@[simp] theorem noteDataReply_err (e : DecodeErr) : s.noteDataReply (.err e) = s := rfl
@[simp] theorem noteDataReply_fsm (r : DecodeResult DataReplyFields) : (s.noteDataReply r).fsm = s.fsm := by cases r <;> rfl
@[simp] theorem noteDataReply_plane (r : DecodeResult DataReplyFields) : (s.noteDataReply r).plane = s.plane := by cases r <;> rfl
@[simp] theorem noteDataReply_page (r : DecodeResult DataReplyFields) : (s.noteDataReply r).page = s.page := by cases r <;> rfl
@[simp] theorem noteDataReply_sub (r : DecodeResult DataReplyFields) : (s.noteDataReply r).sub = s.sub := by cases r <;> rfl
@[simp] theorem noteDataReply_attempt (r : DecodeResult DataReplyFields) : (s.noteDataReply r).attempt = s.attempt := by cases r <;> rfl
@[simp] theorem noteDataReply_slot (r : DecodeResult DataReplyFields) : (s.noteDataReply r).slot = s.slot := by cases r <;> rfl
@[simp] theorem noteDataReply_crcReg (r : DecodeResult DataReplyFields) : (s.noteDataReply r).crcReg = s.crcReg := by cases r <;> rfl
@[simp] theorem noteDataReply_pageBuf (r : DecodeResult DataReplyFields) : (s.noteDataReply r).pageBuf = s.pageBuf := by cases r <;> rfl
@[simp] theorem noteDataReply_pageLen (r : DecodeResult DataReplyFields) : (s.noteDataReply r).pageLen = s.pageLen := by cases r <;> rfl
@[simp] theorem noteDataReply_pageCrc (r : DecodeResult DataReplyFields) : (s.noteDataReply r).pageCrc = s.pageCrc := by cases r <;> rfl
@[simp] theorem noteDataReply_txBuf (r : DecodeResult DataReplyFields) : (s.noteDataReply r).txBuf = s.txBuf := by cases r <;> rfl
@[simp] theorem noteDataReply_txLen (r : DecodeResult DataReplyFields) : (s.noteDataReply r).txLen = s.txLen := by cases r <;> rfl
@[simp] theorem noteDataReply_rxBuf (r : DecodeResult DataReplyFields) : (s.noteDataReply r).rxBuf = s.rxBuf := by cases r <;> rfl
@[simp] theorem noteDataReply_rxLen (r : DecodeResult DataReplyFields) : (s.noteDataReply r).rxLen = s.rxLen := by cases r <;> rfl
@[simp] theorem noteDataReply_failStep (r : DecodeResult DataReplyFields) : (s.noteDataReply r).failStep = s.failStep := by cases r <;> rfl
@[simp] theorem noteDataReply_failPlane (r : DecodeResult DataReplyFields) : (s.noteDataReply r).failPlane = s.failPlane := by cases r <;> rfl
@[simp] theorem noteDataReply_failPage (r : DecodeResult DataReplyFields) : (s.noteDataReply r).failPage = s.failPage := by cases r <;> rfl
@[simp] theorem noteDataReply_failCause (r : DecodeResult DataReplyFields) : (s.noteDataReply r).failCause = s.failCause := by cases r <;> rfl
@[simp] theorem noteDataReply_lastCause (r : DecodeResult DataReplyFields) : (s.noteDataReply r).lastCause = s.lastCause := by cases r <;> rfl
@[simp] theorem noteDataReply_ok_lastCmd16 (f : DataReplyFields) : (s.noteDataReply (.ok f)).lastCmd16 = f.command16 := rfl
@[simp] theorem noteDataReply_ok_lastStatus (f : DataReplyFields) : (s.noteDataReply (.ok f)).lastStatus = f.status8 := rfl
@[simp] theorem noteDataReply_ok_lastPage (f : DataReplyFields) : (s.noteDataReply (.ok f)).lastPage = f.page8 := rfl
@[simp] theorem noteDataReply_lastSlot16 (r : DecodeResult DataReplyFields) : (s.noteDataReply r).lastSlot16 = s.lastSlot16 := by cases r <;> rfl
@[simp] theorem noteDataReply_phase (r : DecodeResult DataReplyFields) : (s.noteDataReply r).phase = s.phase := by cases r <;> rfl
@[simp] theorem noteDataReply_body (r : DecodeResult DataReplyFields) : (s.noteDataReply r).body = s.body := by cases r <;> rfl
@[simp] theorem noteDataReply_scope (r : DecodeResult DataReplyFields) : (s.noteDataReply r).scope = s.scope := by cases r <;> rfl
@[simp] theorem noteDataReply_endLen (r : DecodeResult DataReplyFields) : (s.noteDataReply r).endLen = s.endLen := by cases r <;> rfl
@[simp] theorem noteDataReply_img (r : DecodeResult DataReplyFields) : (s.noteDataReply r).img = s.img := by cases r <;> rfl
@[simp] theorem noteDataReply_txAns (r : DecodeResult DataReplyFields) : (s.noteDataReply r).txAns = s.txAns := by cases r <;> rfl
@[simp] theorem noteDataReply_rxAns (r : DecodeResult DataReplyFields) : (s.noteDataReply r).rxAns = s.rxAns := by cases r <;> rfl
@[simp] theorem noteDataReply_ticks (r : DecodeResult DataReplyFields) : (s.noteDataReply r).ticks = s.ticks := by cases r <;> rfl
@[simp] theorem noteDataReply_inputs (r : DecodeResult DataReplyFields) : (s.noteDataReply r).inputs = s.inputs := by cases r <;> rfl
@[simp] theorem noteDataReply_bench (r : DecodeResult DataReplyFields) : (s.noteDataReply r).bench = s.bench := by cases r <;> rfl
@[simp] theorem noteDataReply_trace (r : DecodeResult DataReplyFields) : (s.noteDataReply r).trace = s.trace := by cases r <;> rfl
@[simp] theorem noteDataReply_result (r : DecodeResult DataReplyFields) : (s.noteDataReply r).result = s.result := by cases r <;> rfl
@[simp] theorem noteDataReply_crcInit (r : DecodeResult DataReplyFields) : (s.noteDataReply r).crcInit = s.crcInit := by cases r <;> rfl
@[simp] theorem noteDataReply_free (r : DecodeResult DataReplyFields) : (s.noteDataReply r).free = s.free := by cases r <;> rfl

/-! ### `noteEndReply`: the last-reply registers after a decode (R163, R167) -/

@[simp] theorem noteEndReply_err (e : DecodeErr) : s.noteEndReply (.err e) = s := rfl
@[simp] theorem noteEndReply_fsm (r : DecodeResult EndReplyFields) : (s.noteEndReply r).fsm = s.fsm := by cases r <;> rfl
@[simp] theorem noteEndReply_plane (r : DecodeResult EndReplyFields) : (s.noteEndReply r).plane = s.plane := by cases r <;> rfl
@[simp] theorem noteEndReply_page (r : DecodeResult EndReplyFields) : (s.noteEndReply r).page = s.page := by cases r <;> rfl
@[simp] theorem noteEndReply_sub (r : DecodeResult EndReplyFields) : (s.noteEndReply r).sub = s.sub := by cases r <;> rfl
@[simp] theorem noteEndReply_attempt (r : DecodeResult EndReplyFields) : (s.noteEndReply r).attempt = s.attempt := by cases r <;> rfl
@[simp] theorem noteEndReply_slot (r : DecodeResult EndReplyFields) : (s.noteEndReply r).slot = s.slot := by cases r <;> rfl
@[simp] theorem noteEndReply_crcReg (r : DecodeResult EndReplyFields) : (s.noteEndReply r).crcReg = s.crcReg := by cases r <;> rfl
@[simp] theorem noteEndReply_pageBuf (r : DecodeResult EndReplyFields) : (s.noteEndReply r).pageBuf = s.pageBuf := by cases r <;> rfl
@[simp] theorem noteEndReply_pageLen (r : DecodeResult EndReplyFields) : (s.noteEndReply r).pageLen = s.pageLen := by cases r <;> rfl
@[simp] theorem noteEndReply_pageCrc (r : DecodeResult EndReplyFields) : (s.noteEndReply r).pageCrc = s.pageCrc := by cases r <;> rfl
@[simp] theorem noteEndReply_txBuf (r : DecodeResult EndReplyFields) : (s.noteEndReply r).txBuf = s.txBuf := by cases r <;> rfl
@[simp] theorem noteEndReply_txLen (r : DecodeResult EndReplyFields) : (s.noteEndReply r).txLen = s.txLen := by cases r <;> rfl
@[simp] theorem noteEndReply_rxBuf (r : DecodeResult EndReplyFields) : (s.noteEndReply r).rxBuf = s.rxBuf := by cases r <;> rfl
@[simp] theorem noteEndReply_rxLen (r : DecodeResult EndReplyFields) : (s.noteEndReply r).rxLen = s.rxLen := by cases r <;> rfl
@[simp] theorem noteEndReply_failStep (r : DecodeResult EndReplyFields) : (s.noteEndReply r).failStep = s.failStep := by cases r <;> rfl
@[simp] theorem noteEndReply_failPlane (r : DecodeResult EndReplyFields) : (s.noteEndReply r).failPlane = s.failPlane := by cases r <;> rfl
@[simp] theorem noteEndReply_failPage (r : DecodeResult EndReplyFields) : (s.noteEndReply r).failPage = s.failPage := by cases r <;> rfl
@[simp] theorem noteEndReply_failCause (r : DecodeResult EndReplyFields) : (s.noteEndReply r).failCause = s.failCause := by cases r <;> rfl
@[simp] theorem noteEndReply_lastCause (r : DecodeResult EndReplyFields) : (s.noteEndReply r).lastCause = s.lastCause := by cases r <;> rfl
@[simp] theorem noteEndReply_ok_lastCmd16 (f : EndReplyFields) : (s.noteEndReply (.ok f)).lastCmd16 = f.command16 := rfl
@[simp] theorem noteEndReply_lastStatus (r : DecodeResult EndReplyFields) : (s.noteEndReply r).lastStatus = s.lastStatus := by cases r <;> rfl
@[simp] theorem noteEndReply_lastPage (r : DecodeResult EndReplyFields) : (s.noteEndReply r).lastPage = s.lastPage := by cases r <;> rfl
@[simp] theorem noteEndReply_ok_lastSlot16 (f : EndReplyFields) : (s.noteEndReply (.ok f)).lastSlot16 = f.slot16 := rfl
@[simp] theorem noteEndReply_phase (r : DecodeResult EndReplyFields) : (s.noteEndReply r).phase = s.phase := by cases r <;> rfl
@[simp] theorem noteEndReply_body (r : DecodeResult EndReplyFields) : (s.noteEndReply r).body = s.body := by cases r <;> rfl
@[simp] theorem noteEndReply_scope (r : DecodeResult EndReplyFields) : (s.noteEndReply r).scope = s.scope := by cases r <;> rfl
@[simp] theorem noteEndReply_endLen (r : DecodeResult EndReplyFields) : (s.noteEndReply r).endLen = s.endLen := by cases r <;> rfl
@[simp] theorem noteEndReply_img (r : DecodeResult EndReplyFields) : (s.noteEndReply r).img = s.img := by cases r <;> rfl
@[simp] theorem noteEndReply_txAns (r : DecodeResult EndReplyFields) : (s.noteEndReply r).txAns = s.txAns := by cases r <;> rfl
@[simp] theorem noteEndReply_rxAns (r : DecodeResult EndReplyFields) : (s.noteEndReply r).rxAns = s.rxAns := by cases r <;> rfl
@[simp] theorem noteEndReply_ticks (r : DecodeResult EndReplyFields) : (s.noteEndReply r).ticks = s.ticks := by cases r <;> rfl
@[simp] theorem noteEndReply_inputs (r : DecodeResult EndReplyFields) : (s.noteEndReply r).inputs = s.inputs := by cases r <;> rfl
@[simp] theorem noteEndReply_bench (r : DecodeResult EndReplyFields) : (s.noteEndReply r).bench = s.bench := by cases r <;> rfl
@[simp] theorem noteEndReply_trace (r : DecodeResult EndReplyFields) : (s.noteEndReply r).trace = s.trace := by cases r <;> rfl
@[simp] theorem noteEndReply_result (r : DecodeResult EndReplyFields) : (s.noteEndReply r).result = s.result := by cases r <;> rfl
@[simp] theorem noteEndReply_crcInit (r : DecodeResult EndReplyFields) : (s.noteEndReply r).crcInit = s.crcInit := by cases r <;> rfl
@[simp] theorem noteEndReply_free (r : DecodeResult EndReplyFields) : (s.noteEndReply r).free = s.free := by cases r <;> rfl

/-! ### `leaveSubs`: leaving the sub-frames of a page attempt (R214) -/

@[simp] theorem leaveSubs_fsm : s.leaveSubs.fsm = s.fsm := by unfold leaveSubs; split <;> rfl
@[simp] theorem leaveSubs_plane : s.leaveSubs.plane = s.plane := by unfold leaveSubs; split <;> rfl
@[simp] theorem leaveSubs_page : s.leaveSubs.page = s.page := by unfold leaveSubs; split <;> rfl
@[simp] theorem leaveSubs_sub : s.leaveSubs.sub = if s.body = .page then 0 else s.sub := by unfold leaveSubs; split <;> rfl
@[simp] theorem leaveSubs_attempt : s.leaveSubs.attempt = s.attempt := by unfold leaveSubs; split <;> rfl
@[simp] theorem leaveSubs_slot : s.leaveSubs.slot = s.slot := by unfold leaveSubs; split <;> rfl
@[simp] theorem leaveSubs_crcReg : s.leaveSubs.crcReg = s.crcReg := by unfold leaveSubs; split <;> rfl
@[simp] theorem leaveSubs_pageBuf : s.leaveSubs.pageBuf = s.pageBuf := by unfold leaveSubs; split <;> rfl
@[simp] theorem leaveSubs_pageLen : s.leaveSubs.pageLen = s.pageLen := by unfold leaveSubs; split <;> rfl
@[simp] theorem leaveSubs_pageCrc : s.leaveSubs.pageCrc = s.pageCrc := by unfold leaveSubs; split <;> rfl
@[simp] theorem leaveSubs_txBuf : s.leaveSubs.txBuf = s.txBuf := by unfold leaveSubs; split <;> rfl
@[simp] theorem leaveSubs_txLen : s.leaveSubs.txLen = s.txLen := by unfold leaveSubs; split <;> rfl
@[simp] theorem leaveSubs_rxBuf : s.leaveSubs.rxBuf = s.rxBuf := by unfold leaveSubs; split <;> rfl
@[simp] theorem leaveSubs_rxLen : s.leaveSubs.rxLen = s.rxLen := by unfold leaveSubs; split <;> rfl
@[simp] theorem leaveSubs_failStep : s.leaveSubs.failStep = s.failStep := by unfold leaveSubs; split <;> rfl
@[simp] theorem leaveSubs_failPlane : s.leaveSubs.failPlane = s.failPlane := by unfold leaveSubs; split <;> rfl
@[simp] theorem leaveSubs_failPage : s.leaveSubs.failPage = s.failPage := by unfold leaveSubs; split <;> rfl
@[simp] theorem leaveSubs_failCause : s.leaveSubs.failCause = s.failCause := by unfold leaveSubs; split <;> rfl
@[simp] theorem leaveSubs_lastCause : s.leaveSubs.lastCause = s.lastCause := by unfold leaveSubs; split <;> rfl
@[simp] theorem leaveSubs_lastCmd16 : s.leaveSubs.lastCmd16 = s.lastCmd16 := by unfold leaveSubs; split <;> rfl
@[simp] theorem leaveSubs_lastStatus : s.leaveSubs.lastStatus = s.lastStatus := by unfold leaveSubs; split <;> rfl
@[simp] theorem leaveSubs_lastPage : s.leaveSubs.lastPage = s.lastPage := by unfold leaveSubs; split <;> rfl
@[simp] theorem leaveSubs_lastSlot16 : s.leaveSubs.lastSlot16 = s.lastSlot16 := by unfold leaveSubs; split <;> rfl
@[simp] theorem leaveSubs_phase : s.leaveSubs.phase = s.phase := by unfold leaveSubs; split <;> rfl
@[simp] theorem leaveSubs_body : s.leaveSubs.body = s.body := by unfold leaveSubs; split <;> rfl
@[simp] theorem leaveSubs_scope : s.leaveSubs.scope = s.scope := by unfold leaveSubs; split <;> rfl
@[simp] theorem leaveSubs_endLen : s.leaveSubs.endLen = s.endLen := by unfold leaveSubs; split <;> rfl
@[simp] theorem leaveSubs_img : s.leaveSubs.img = s.img := by unfold leaveSubs; split <;> rfl
@[simp] theorem leaveSubs_txAns : s.leaveSubs.txAns = s.txAns := by unfold leaveSubs; split <;> rfl
@[simp] theorem leaveSubs_rxAns : s.leaveSubs.rxAns = s.rxAns := by unfold leaveSubs; split <;> rfl
@[simp] theorem leaveSubs_ticks : s.leaveSubs.ticks = s.ticks := by unfold leaveSubs; split <;> rfl
@[simp] theorem leaveSubs_inputs : s.leaveSubs.inputs = s.inputs := by unfold leaveSubs; split <;> rfl
@[simp] theorem leaveSubs_bench : s.leaveSubs.bench = s.bench := by unfold leaveSubs; split <;> rfl
@[simp] theorem leaveSubs_trace : s.leaveSubs.trace = s.trace := by unfold leaveSubs; split <;> rfl
@[simp] theorem leaveSubs_result : s.leaveSubs.result = s.result := by unfold leaveSubs; split <;> rfl
@[simp] theorem leaveSubs_crcInit : s.leaveSubs.crcInit = s.crcInit := by unfold leaveSubs; split <;> rfl
@[simp] theorem leaveSubs_free : s.leaveSubs.free = s.free := by unfold leaveSubs; split <;> rfl

/-! ### `receive`: the buffer after an answered `Rx` (R33) -/

@[simp] theorem receive_fsm (a : RxAnswer) : (s.receive a).fsm = s.fsm := by cases a <;> rfl
@[simp] theorem receive_plane (a : RxAnswer) : (s.receive a).plane = s.plane := by cases a <;> rfl
@[simp] theorem receive_page (a : RxAnswer) : (s.receive a).page = s.page := by cases a <;> rfl
@[simp] theorem receive_sub (a : RxAnswer) : (s.receive a).sub = s.sub := by cases a <;> rfl
@[simp] theorem receive_attempt (a : RxAnswer) : (s.receive a).attempt = s.attempt := by cases a <;> rfl
@[simp] theorem receive_slot (a : RxAnswer) : (s.receive a).slot = s.slot := by cases a <;> rfl
@[simp] theorem receive_crcReg (a : RxAnswer) : (s.receive a).crcReg = s.crcReg := by cases a <;> rfl
@[simp] theorem receive_pageBuf (a : RxAnswer) : (s.receive a).pageBuf = s.pageBuf := by cases a <;> rfl
@[simp] theorem receive_pageLen (a : RxAnswer) : (s.receive a).pageLen = s.pageLen := by cases a <;> rfl
@[simp] theorem receive_pageCrc (a : RxAnswer) : (s.receive a).pageCrc = s.pageCrc := by cases a <;> rfl
@[simp] theorem receive_txBuf (a : RxAnswer) : (s.receive a).txBuf = s.txBuf := by cases a <;> rfl
@[simp] theorem receive_txLen (a : RxAnswer) : (s.receive a).txLen = s.txLen := by cases a <;> rfl
@[simp] theorem receive_failStep (a : RxAnswer) : (s.receive a).failStep = s.failStep := by cases a <;> rfl
@[simp] theorem receive_failPlane (a : RxAnswer) : (s.receive a).failPlane = s.failPlane := by cases a <;> rfl
@[simp] theorem receive_failPage (a : RxAnswer) : (s.receive a).failPage = s.failPage := by cases a <;> rfl
@[simp] theorem receive_failCause (a : RxAnswer) : (s.receive a).failCause = s.failCause := by cases a <;> rfl
@[simp] theorem receive_lastCause (a : RxAnswer) : (s.receive a).lastCause = s.lastCause := by cases a <;> rfl
@[simp] theorem receive_lastCmd16 (a : RxAnswer) : (s.receive a).lastCmd16 = s.lastCmd16 := by cases a <;> rfl
@[simp] theorem receive_lastStatus (a : RxAnswer) : (s.receive a).lastStatus = s.lastStatus := by cases a <;> rfl
@[simp] theorem receive_lastPage (a : RxAnswer) : (s.receive a).lastPage = s.lastPage := by cases a <;> rfl
@[simp] theorem receive_lastSlot16 (a : RxAnswer) : (s.receive a).lastSlot16 = s.lastSlot16 := by cases a <;> rfl
@[simp] theorem receive_phase (a : RxAnswer) : (s.receive a).phase = s.phase := by cases a <;> rfl
@[simp] theorem receive_body (a : RxAnswer) : (s.receive a).body = s.body := by cases a <;> rfl
@[simp] theorem receive_scope (a : RxAnswer) : (s.receive a).scope = s.scope := by cases a <;> rfl
@[simp] theorem receive_endLen (a : RxAnswer) : (s.receive a).endLen = s.endLen := by cases a <;> rfl
@[simp] theorem receive_img (a : RxAnswer) : (s.receive a).img = s.img := by cases a <;> rfl
@[simp] theorem receive_txAns (a : RxAnswer) : (s.receive a).txAns = s.txAns := by cases a <;> rfl
@[simp] theorem receive_rxAns (a : RxAnswer) : (s.receive a).rxAns = s.rxAns := by cases a <;> rfl
@[simp] theorem receive_ticks (a : RxAnswer) : (s.receive a).ticks = s.ticks := by cases a <;> rfl
@[simp] theorem receive_inputs (a : RxAnswer) : (s.receive a).inputs = s.inputs := by cases a <;> rfl
@[simp] theorem receive_bench (a : RxAnswer) : (s.receive a).bench = s.bench := by cases a <;> rfl
@[simp] theorem receive_trace (a : RxAnswer) : (s.receive a).trace = s.trace := by cases a <;> rfl
@[simp] theorem receive_result (a : RxAnswer) : (s.receive a).result = s.result := by cases a <;> rfl
@[simp] theorem receive_crcInit (a : RxAnswer) : (s.receive a).crcInit = s.crcInit := by cases a <;> rfl
@[simp] theorem receive_free (a : RxAnswer) : (s.receive a).free = s.free + 1 := by cases a <;> rfl

end Sys2Proof.Machine.State
end

