-- ==== Sys2Proof/Laws/Buffers.lean ====
section
/-! SUPPORT. The buffers and the frames: lengths, and what is read back of a frame put in `tx_buf` or a reply put in `rx_buf`. -/

namespace Sys2Proof

@[simp] theorem le16_length (v : Half) : (le16 v).length = 2 := rfl
@[simp] theorem le32_length (v : Word) : (le32 v).length = 4 := rfl
@[simp] theorem zeros_length (n : Nat) : (zeros n).length = n := by simp [zeros]
@[simp] theorem fit_length (n : Nat) (b : List Byte) : (fit n b).length = n := by simp [fit]

/-- A sequence of the buffer's own length fits unchanged. -/
theorem fit_of_length {n : Nat} {b : List Byte} (h : b.length = n) : fit n b = b := by simp [fit, ← h]

@[simp] theorem startFrame_length (q : Plane) (s : Slot) : (startFrame q s).length = 10 := rfl
@[simp] theorem endFrameBytes_length (s : Slot) : (endFrameBytes s).length = 10 := rfl
@[simp] theorem startReplyFrame_length (c : Half) (st r : Byte) : (startReplyFrame c st r).length = 10 := rfl
@[simp] theorem dataReplyFrame_length (c : Half) (p st : Byte) : (dataReplyFrame c p st).length = 6 := rfl
@[simp] theorem dataFrame_length (q : Plane) (s : Slot) (p : Page) (k : Sub) (b : List Byte) :
    (dataFrame q s p k b).length = 64 := by simp [dataFrame, Config.wirePayload]
@[simp] theorem endReplyFrame_length (n : Config.EndLen) (c sl : Half) : (endReplyFrame n c sl).length = n.bytes := by
  cases n <;> rfl

namespace Machine

@[simp] theorem bufOf_toList (n : Nat) (b : List Byte) : (bufOf n b).toList = fit n b := rfl

@[simp] theorem poke_zero (b d : List Byte) : poke b 0 d = d ++ b.drop d.length := by simp [poke]

@[simp] theorem dataWrites_length (q : Plane) (sl : Slot) (p : Page) (k : Sub) (b : List Byte) :
    (dataWrites q sl p k b).length = 64 := by simp [dataWrites]

/-- A frame put in `tx_buf` is what stands there below `tx_len` (R140). -/
theorem State.putFrame_txFrame (s : State) {f : List Byte} (h : f.length ≤ 64) : (s.putFrame f).txFrame = f := by
  have h7 : f.length % 128 = f.length := Nat.mod_eq_of_lt (by omega)
  simp only [State.txFrame, State.putFrame_txBuf, State.putFrame_txLen, bufOf_toList, poke_zero, BitVec.toNat_ofNat,
    Nat.reducePow, h7, fit, List.append_assoc, List.take_take, Nat.min_eq_left h, List.take_left']

/-- A reply delivered into `rx_buf` is what the decoder sees: at most 10 bytes of it (R33). -/
theorem State.putReply_rxBytes (s : State) (b : List Byte) : (s.putReply b).rxBytes = b.take 10 := by
  have hl : (b.take 10).length ≤ 10 := by simp
  have h4 : (b.take 10).length % 16 = (b.take 10).length := Nat.mod_eq_of_lt (by omega)
  simp only [State.rxBytes, State.putReply_rxBuf, State.putReply_rxLen, bufOf_toList, BitVec.toNat_ofNat, Nat.reducePow, h4,
    fit, List.append_assoc, List.take_take, Nat.min_eq_left hl, List.take_left']

end Machine
end Sys2Proof
end

