-- ==== Sys2Proof/Laws/Decode.lean ====
section
/-! SUPPORT. What the decoder can answer: only commands and frames. -/

namespace Sys2Proof

/-- An accepted word is a command or a frame. -/
def Decoded.wire : Decoded → Bool
  | .ok i => i.onWire
  | .reject _ => true

theorem ite_wire {p : Prop} [Decidable p] {a b : Decoded} (ha : a.wire = true) (hb : b.wire = true) :
    (if p then a else b).wire = true := by split <;> assumption

theorem decodeHost10_wire (c : Ctx) (b : List Byte) : (decodeHost10 c b).wire = true :=
  ite_wire rfl (ite_wire rfl (ite_wire rfl (ite_wire rfl (ite_wire rfl rfl))))

theorem decodeData_wire (b : List Byte) : (decodeData b).wire = true :=
  ite_wire rfl (ite_wire rfl (ite_wire rfl (ite_wire rfl rfl)))

theorem decodeStartReply_wire (b : List Byte) : (decodeStartReply b).wire = true := ite_wire rfl (ite_wire rfl rfl)

theorem decodeDataReply_wire (b : List Byte) : (decodeDataReply b).wire = true := ite_wire rfl rfl

theorem decodeEndReply_wire (n : Config.EndLen) (b : List Byte) : (decodeEndReply n b).wire = true :=
  ite_wire rfl (ite_wire rfl rfl)

/-- The decoder answers only commands and frames. -/
theorem decode_wire (c : Ctx) (b : List Byte) : (decode c b).wire = true :=
  ite_wire rfl (ite_wire (decodeDataReply_wire b) (ite_wire (ite_wire (decodeEndReply_wire _ b) rfl)
    (ite_wire (ite_wire (decodeHost10_wire c b) (ite_wire (decodeEndReply_wire _ b) (decodeStartReply_wire b)))
      (ite_wire (decodeData_wire b) rfl))))

/-- A decoded instruction is on the wire. -/
theorem onWire_of_decode {c : Ctx} {b : List Byte} {i : Instr} (h : decode c b = .ok i) : i.onWire = true := by
  simpa [h, Decoded.wire] using decode_wire c b

end Sys2Proof
end

