-- ==== Sys2Proof/Laws/Memory.lean ====
section
/-! SUPPORT. The laws of the image store: a write is read back, leaves every other byte, and keeps the canonical form. -/

namespace Sys2Proof.Machine

@[simp] theorem Memory.read_nil (k : Nat) : Memory.read [] k = Memory.unlisted := rfl

@[simp] theorem Memory.read_cons_cell (a k : Nat) (v : Byte) (m : Memory) :
    Memory.read ((a, v) :: m) k = if a = k then v else Memory.read m k := rfl

/-- Below every listed key nothing is listed. -/
theorem Memory.read_below {m : Memory} {lo k : Nat} (h : Memory.wfFrom lo m = true) (hk : k < lo) :
    Memory.read m k = Memory.unlisted := by
  induction m generalizing lo with
  | nil => rfl
  | cons c rest ih =>
    obtain ⟨a, v⟩ := c
    simp only [Memory.wfFrom, Bool.and_eq_true, decide_eq_true_eq] at h
    have : a ≠ k := by omega
    simp [this, ih h.2 (by omega)]

/-- A form above a bound is one above a smaller bound. -/
theorem Memory.wfFrom_mono {m : Memory} {lo lo' : Nat} (h : Memory.wfFrom lo m = true) (hl : lo' ≤ lo) :
    Memory.wfFrom lo' m = true := by
  cases m with
  | nil => rfl
  | cons c rest =>
    obtain ⟨a, v⟩ := c
    simp only [Memory.wfFrom, Bool.and_eq_true, decide_eq_true_eq] at h ⊢
    exact ⟨⟨⟨by omega, h.1.1.2⟩, h.1.2⟩, h.2⟩

theorem Memory.cons_wfFrom {m : Memory} {lo k : Nat} {v : Byte} (h : Memory.wfFrom (k + 1) m = true) (hk : lo ≤ k)
    (hb : k < 2 * Config.planeBytes) : Memory.wfFrom lo (Memory.cons k v m) = true := by
  unfold Memory.cons
  split
  · exact Memory.wfFrom_mono h (by omega)
  · simp_all [Memory.wfFrom]

theorem Memory.write_wfFrom {m : Memory} {lo k : Nat} {v : Byte} (h : Memory.wfFrom lo m = true) (hk : lo ≤ k)
    (hb : k < 2 * Config.planeBytes) : Memory.wfFrom lo (Memory.write m k v) = true := by
  induction m generalizing lo with
  | nil => exact Memory.cons_wfFrom rfl hk hb
  | cons c rest ih =>
    obtain ⟨a, w⟩ := c
    simp only [Memory.wfFrom, Bool.and_eq_true, decide_eq_true_eq] at h
    unfold Memory.write
    split
    · refine Memory.cons_wfFrom ?_ hk hb
      simp only [Memory.wfFrom, Bool.and_eq_true, decide_eq_true_eq]
      exact ⟨⟨⟨by omega, h.1.1.2⟩, h.1.2⟩, h.2⟩
    · split
      · exact Memory.cons_wfFrom (Memory.wfFrom_mono h.2 (by omega)) hk hb
      · simp only [Memory.wfFrom, Bool.and_eq_true, decide_eq_true_eq]
        exact ⟨h.1, ih h.2 (by omega)⟩

/-- Every write inside IMG keeps the canonical form. -/
theorem Memory.write_wf {m : Memory} {k : Nat} {v : Byte} (h : Memory.wf m = true) (hb : k < 2 * Config.planeBytes) :
    Memory.wf (Memory.write m k v) = true := Memory.write_wfFrom h (Nat.zero_le k) hb

/-- `PLANE_BYTES` is 15000 (R5). -/
@[simp] theorem planeBytes_eq : Config.planeBytes = 15000 := rfl

theorem imgKey_lt {q : Plane} {a : Nat} (h : a < Config.planeBytes) : imgKey q a < 2 * Config.planeBytes := by
  have : q.toNat ≤ 1 := by have := q.isLt; omega
  unfold imgKey
  simp only [planeBytes_eq] at *
  omega

/-- The host's filling of the image keeps the canonical form. -/
theorem State.hostWriteImage_wf {s : State} {q : Plane} {a : Nat} {v : Byte} (h : Memory.wf s.img = true) :
    Memory.wf (s.hostWriteImage q a v).img = true := by
  unfold State.hostWriteImage
  split
  · rename_i hc
    exact Memory.write_wf h (imgKey_lt hc.1)
  · exact h

end Sys2Proof.Machine
end

