-- ==== Sys2Proof/Laws/PerInstr.lean ====
section
/-! SUPPORT. Laws per operation: how many bytes its encoding has (spec/opcode_table.json, `length_bytes`). -/

namespace Sys2Proof.Laws.EncodedLength

/-- The bytes of a row on the stream or the command port; `none` for what has no bit pattern (R80, R98). -/
def rowBytes (c : Ctx) : Instr → Option Nat
  | .start _ _ | .endFrame _ | .startReply _ _ _ => some 10
  | .data _ _ _ _ _ => some 64
  | .dataReply _ _ _ => some 6
  | .endReply _ _ => some c.endLen.bytes
  | .send _ => some 1
  | .reset | .crcInit | .crcByte _ | .crcFin | .crcSpan _ | .encStart | .encData _ | .encEnd
  | .refSreply _ _ _ | .refDreply _ _ _ | .refEreply _ _ | .decSreply _ | .decDreply _ | .decEreply _
  | .clsStart _ | .clsData _ | .segPage _ _ | .segSub _ | .retry _ | .stepStart | .stepPage | .stepEnd | .run => none

/-- The encoding has the row's length, and there is one exactly where the row has a bit pattern. -/
def Statement (i : Instr) : Prop := ∀ c : Ctx, (encode c i).map List.length = rowBytes c i

theorem start (q : Plane) (s : Slot) : Statement (.start q s) := fun _ => by simp [encode, rowBytes]
theorem data (q : Plane) (s : Slot) (p : Page) (k : Sub) (r : List Byte) : Statement (.data q s p k r) := fun _ => by simp [encode, rowBytes]
theorem endFrame (s : Slot) : Statement (.endFrame s) := fun _ => by simp [encode, rowBytes]
theorem startReply (c : Half) (st r : Byte) : Statement (.startReply c st r) := fun _ => by simp [encode, rowBytes]
theorem dataReply (c : Half) (p st : Byte) : Statement (.dataReply c p st) := fun _ => by simp [encode, rowBytes]
theorem endReply (c sl : Half) : Statement (.endReply c sl) := fun _ => by simp [encode, rowBytes]
theorem send (o : Byte) : Statement (.send o) := fun _ => by simp [encode, rowBytes]
theorem reset : Statement .reset := fun _ => by simp [encode, rowBytes]
theorem crcInit : Statement .crcInit := fun _ => by simp [encode, rowBytes]
theorem crcByte (d : Byte) : Statement (.crcByte d) := fun _ => by simp [encode, rowBytes]
theorem crcFin : Statement .crcFin := fun _ => by simp [encode, rowBytes]
theorem crcSpan (b : List Byte) : Statement (.crcSpan b) := fun _ => by simp [encode, rowBytes]
theorem encStart : Statement .encStart := fun _ => by simp [encode, rowBytes]
theorem encData (p : List Byte) : Statement (.encData p) := fun _ => by simp [encode, rowBytes]
theorem encEnd : Statement .encEnd := fun _ => by simp [encode, rowBytes]
theorem refSreply (c : Half) (st r : Byte) : Statement (.refSreply c st r) := fun _ => by simp [encode, rowBytes]
theorem refDreply (c : Half) (p st : Byte) : Statement (.refDreply c p st) := fun _ => by simp [encode, rowBytes]
theorem refEreply (c sl : Half) : Statement (.refEreply c sl) := fun _ => by simp [encode, rowBytes]
theorem decSreply (b : List Byte) : Statement (.decSreply b) := fun _ => by simp [encode, rowBytes]
theorem decDreply (b : List Byte) : Statement (.decDreply b) := fun _ => by simp [encode, rowBytes]
theorem decEreply (b : List Byte) : Statement (.decEreply b) := fun _ => by simp [encode, rowBytes]
theorem clsStart (st : Byte) : Statement (.clsStart st) := fun _ => by simp [encode, rowBytes]
theorem clsData (st : Byte) : Statement (.clsData st) := fun _ => by simp [encode, rowBytes]
theorem segPage (q : Plane) (p : Page) : Statement (.segPage q p) := fun _ => by simp [encode, rowBytes]
theorem segSub (k : Sub) : Statement (.segSub k) := fun _ => by simp [encode, rowBytes]
theorem retry (b : Body) : Statement (.retry b) := fun _ => by simp [encode, rowBytes]
theorem stepStart : Statement .stepStart := fun _ => by simp [encode, rowBytes]
theorem stepPage : Statement .stepPage := fun _ => by simp [encode, rowBytes]
theorem stepEnd : Statement .stepEnd := fun _ => by simp [encode, rowBytes]
theorem run : Statement .run := fun _ => by simp [encode, rowBytes]

end Sys2Proof.Laws.EncodedLength
end

