-- ==== Sys2Proof/Laws/Sequencer.lean ====
section
/-! SUPPORT. What one phase of the sequencer does, one lemma per phase; what the environment primitives do with and without an
answer; what `drive` does. Later proofs cite these and do not unfold `advance`. -/

namespace Sys2Proof.Machine

@[simp] theorem onNext_next (s : State) (f : State → State) : onNext (.next s) f = .next (f s) := rfl
@[simp] theorem onNext_fault (r : Fault) (f : State → State) : onNext (.fault r) f = .fault r := rfl
@[simp] theorem onNext_refused (r : Refusal) (f : State → State) : onNext (.refused r) f = .refused r := rfl

/-- A further change after a next state comes from a next state. -/
theorem onNext_eq_next {o : Out} {f : State → State} {t : State} (h : onNext o f = .next t) : ∃ u, o = .next u ∧ t = f u := by
  cases o with
  | next u => exact ⟨u, rfl, by simpa [eq_comm] using h⟩
  | fault r => simp at h
  | refused r => simp at h

/-! ### The environment primitives -/

theorem State.transmit_nil {s : State} (h : s.txAns = []) (k : State → TxAnswer → State) : s.transmit k = s := by
  simp [State.transmit, h]

theorem State.transmit_cons {s : State} {a : TxAnswer} {rest : List TxAnswer} (h : s.txAns = a :: rest)
    (k : State → TxAnswer → State) :
    s.transmit k = k (State.emit { s with txAns := rest } (.tx s.txFrame a)) a := by
  simp [State.transmit, h]

theorem State.request_nil {s : State} (h : s.rxAns = []) (n : Nat) (k : State → RxAnswer → State) : s.request n k = s := by
  simp [State.request, h]

theorem State.request_cons {s : State} {a : RxAnswer} {rest : List RxAnswer} (h : s.rxAns = a :: rest) (n : Nat)
    (k : State → RxAnswer → State) :
    s.request n k = k ((State.receive { s with rxAns := rest } (a.upTo n)).emit (.rx n (a.upTo n))) (a.upTo n) := by
  simp [State.request, h]

theorem State.await_zero {s : State} (h : s.ticks = 0) (k : State → State) : s.await k = s := by
  simp [State.await, h]

theorem State.await_succ {s : State} {n : Nat} (h : s.ticks = n + 1) (k : State → State) :
    s.await k = k (State.emit { s with ticks := n } .waitUnit) := by
  simp [State.await, h]

/-! ### The operations a phase runs always have a next state -/

theorem encodeOf_next (b : Body) (p : List Byte) (s : State) : ∃ f, encodeOf b p s = .next (s.putFrame f) ∧ f.length ≤ 64 := by
  cases b with
  | start => exact ⟨_, rfl, by simp⟩
  | page => exact ⟨_, rfl, by simp⟩
  | finish => exact ⟨_, rfl, by simp⟩

theorem decoderOf_next (b : Body) (r : List Byte) (s : State) : ∃ t, decoderOf b r s = .next t := by
  cases b <;> exact ⟨_, rfl⟩

theorem classifierOf_next (b : Body) (st : Byte) (s : State) : ∃ c, classifierOf b st s = .next (s.returns c) := by
  cases b <;> exact ⟨_, rfl⟩

/-! ### One phase -/

theorem advance_idle {s : State} (h : s.phase = .idle) : advance s = .next s := by simp [advance, h]

theorem advance_segPage {s : State} (h : s.phase = .segPage) (hp : pageOk s.page = true) :
    advance s = .next { s.loadPage s.plane s.page with sub := 1, phase := .segSub } := by
  simp [advance, h, execSegPage, hp]

theorem advance_segPage_fault {s : State} (h : s.phase = .segPage) (hp : pageOk s.page = false) :
    advance s = .fault (.pageRange s.page) := by
  simp [advance, h, execSegPage, hp]

theorem advance_segSub {s : State} (h : s.phase = .segSub) (hk : subOk s.sub = true) :
    advance s = .next ((s.returns (.bytes (s.payload s.sub))).atPhase (.enc (s.payload s.sub))) := by
  simp [advance, h, execSegSub, hk]

theorem advance_segSub_fault {s : State} (h : s.phase = .segSub) (hk : subOk s.sub = false) :
    advance s = .fault (.subRange s.sub) := by
  simp [advance, h, execSegSub, hk]

theorem advance_enc_start {s : State} {p : List Byte} (h : s.phase = .enc p) (hb : s.body = .start) :
    advance s = .next ((s.putFrame (startFrame s.plane s.slot)).atPhase .tx) := by
  simp [advance, h, hb, encodeOf, execEncStart]

theorem advance_enc_page {s : State} {p : List Byte} (h : s.phase = .enc p) (hb : s.body = .page) :
    advance s = .next ((s.putFrame (dataWrites s.plane s.slot s.page s.sub p)).atPhase .tx) := by
  simp [advance, h, hb, encodeOf, execEncData]

theorem advance_enc_finish {s : State} {p : List Byte} (h : s.phase = .enc p) (hb : s.body = .finish) :
    advance s = .next ((s.putFrame (endFrameBytes s.slot)).atPhase .tx) := by
  simp [advance, h, hb, encodeOf, execEncEnd]

theorem advance_tx {s : State} (h : s.phase = .tx) : advance s = .next (s.transmit State.afterTx) := by simp [advance, h]

theorem advance_rx {s : State} (h : s.phase = .rx) :
    advance s = .next (s.request (replyBytes s.endLen s.body) State.afterRx) := by simp [advance, h]

theorem advance_dec_start {s : State} (h : s.phase = .dec) (hb : s.body = .start) :
    advance s = .next (((s.noteStartReply (startReplyOf s.rxBytes)).returns (.startReply (startReplyOf s.rxBytes))).atPhase
      (afterDecode s.endLen .start s.rxBytes)) := by
  simp [advance, h, hb, decoderOf, execDecSreply]

theorem advance_dec_page {s : State} (h : s.phase = .dec) (hb : s.body = .page) :
    advance s = .next (((s.noteDataReply (dataReplyOf s.rxBytes)).returns (.dataReply (dataReplyOf s.rxBytes))).atPhase
      (afterDecode s.endLen .page s.rxBytes)) := by
  simp [advance, h, hb, decoderOf, execDecDreply]

theorem advance_dec_finish {s : State} (h : s.phase = .dec) (hb : s.body = .finish) :
    advance s = .next (((s.noteEndReply (endReplyOf s.endLen s.rxBytes)).returns
      (.endReply (endReplyOf s.endLen s.rxBytes))).atPhase (afterDecode s.endLen .finish s.rxBytes)) := by
  simp [advance, h, hb, decoderOf, execDecEreply]

theorem advance_cls {s : State} {st : Byte} (h : s.phase = .cls st) :
    ∃ c, advance s = .next ((s.returns c).atPhase (afterClass s.body st)) := by
  obtain ⟨c, hc⟩ := classifierOf_next s.body st s
  exact ⟨c, by simp [advance, h, hc]⟩

theorem advance_backoff {s : State} (h : s.phase = .backoff) :
    advance s = .next (s.await fun t => t.atPhase (.judge (.retry .startBusy))) := by simp [advance, h]

theorem advance_judge {s : State} {r : AttemptResult} (h : s.phase = .judge r) : advance s = .next (s.judge r) := by
  simp [advance, h]

theorem advance_ret {s : State} {r : StepResult} (h : s.phase = .ret r) : advance s = .next (s.finishStep r) := by
  simp [advance, h]

/-- A phase never refuses. -/
theorem advance_not_refused (s : State) (r : Refusal) : advance s ≠ .refused r := by
  cases h : s.phase with
  | idle => simp [advance_idle h]
  | segPage => cases hp : pageOk s.page <;> simp [advance_segPage_fault h, advance_segPage h, hp]
  | segSub => cases hk : subOk s.sub <;> simp [advance_segSub_fault h, advance_segSub h, hk]
  | enc p => obtain ⟨f, hf, -⟩ := encodeOf_next s.body p s; simp [advance, h, hf]
  | tx => simp [advance_tx h]
  | rx => simp [advance_rx h]
  | dec => obtain ⟨t, ht⟩ := decoderOf_next s.body s.rxBytes s; simp [advance, h, ht]
  | cls st => obtain ⟨c, hc⟩ := advance_cls h; simp [hc]
  | backoff => simp [advance_backoff h]
  | judge r => simp [advance_judge h]
  | ret r => simp [advance_ret h]

/-! ### `drive` -/

theorem drive_rest {s : State} (h : s.atRest = true) (n : Nat) : drive n s = .next s := by
  cases n <;> simp [drive, h]

theorem drive_go {s t : State} (h : s.atRest = false) (ha : advance s = .next t) (n : Nat) :
    drive (n + 1) s = drive n t := by
  simp [drive, h, ha]

/-- A drive is its phases taken in two parts. -/
theorem drive_add {m : Nat} {s t : State} (h : drive m s = .next t) (n : Nat) : drive (m + n) s = drive n t := by
  induction m generalizing s with
  | zero => cases h; simp
  | succ m ih =>
    rw [Nat.succ_add]
    cases hr : s.atRest with
    | true => rw [drive_rest hr] at h; cases h; rw [drive_rest hr, drive_rest hr]
    | false =>
      cases ha : advance s with
      | next u => rw [drive_go hr ha] at h ⊢; exact ih h
      | fault r => simp [drive, hr, ha] at h
      | refused r => simp [drive, hr, ha] at h

/-- What every phase keeps, every drive keeps. -/
theorem drive_keeps {P : State → Prop} (hP : ∀ s t, P s → advance s = .next t → P t) {n : Nat} {s t : State}
    (hs : P s) (h : drive n s = .next t) : P t := by
  induction n generalizing s with
  | zero => cases h; exact hs
  | succ n ih =>
    unfold drive at h
    split at h
    · cases h; exact hs
    · split at h
      · rename_i u hu
        exact ih (hP _ _ hs hu) h
      · cases h
      · cases h

/-! ### One step -/

theorem State.nextInput_nil {s : State} (h : s.inputs = []) : s.nextInput = s := by
  simp only [State.nextInput, h, List.tail_nil]
  rw [← h]

theorem State.benchWord_of_running {s : State} (h : s.running = true) : s.benchWord = none := by simp [State.benchWord, h]

theorem State.benchWord_of_rest {s : State} (h : s.running = false) : s.benchWord = s.bench := by simp [State.benchWord, h]

theorem State.running_of_phase {s : State} (h : s.phase ≠ .idle) : s.running = true := by simp [State.running, h]

theorem State.running_of_busy {s : State} (h : s.busy = true) : s.running = true := by simp [State.running, h]

theorem step_reset {s : State} (h : s.pinUp = true) : step s = .next s.nextInput.toReset := by
  simp [step, h, exec, execReset]

theorem step_bench {s : State} {b : BenchWord} (hp : s.pinUp = false) (hb : s.benchWord = some b) :
    step s = runWord b { s with bench := none } := by
  simp [step, hp, hb]

theorem step_command {s : State} {o : Byte} (hp : s.pinUp = false) (hb : s.benchWord = none) (hc : s.command = some o) :
    step s = exec (.send o) s.nextInput := by
  simp [step, hp, hb, hc]

theorem step_pause {s : State} (hp : s.pinUp = false) (hb : s.benchWord = none) (hc : s.command = none) :
    step s = advance s.nextInput := by
  simp [step, hp, hb, hc]

theorem step_quiet {s : State} (h : s.inputs = []) (hb : s.benchWord = none) : step s = advance s := by
  rw [step_pause (by simp [State.pinUp, h]) hb (by simp [State.command, h]), State.nextInput_nil h]

/-- What executing a command or frame can do: a session opened or a command ignored, a frame put in `tx_buf`, or a reply
decoded. -/
theorem exec_wire_cases {i : Instr} {s t : State} (hi : i.onWire = true) (h : exec i s = .next t) :
    (∃ o, i = .send o ∧ t = if s.busy then s else (s.openSession o).enterPlane 0) ∨
    (∃ f : List Byte, f.length ≤ 64 ∧ t = s.putFrame f) ∨
    (∃ b r, t = (s.noteStartReply (startReplyOf b)).returns r) ∨
    (∃ b r, t = (s.noteDataReply (dataReplyOf b)).returns r) ∨
    (∃ b r, t = (s.noteEndReply (endReplyOf s.endLen b)).returns r) := by
  cases i with
  | send o =>
    refine .inl ⟨o, rfl, ?_⟩
    simp only [exec, execSend] at h
    split at h <;> cases h <;> simp_all
  | start q sl => cases h; exact .inr (.inl ⟨_, by simp, rfl⟩)
  | data q sl p k b => cases h; exact .inr (.inl ⟨_, by simp, rfl⟩)
  | endFrame sl => cases h; exact .inr (.inl ⟨_, by simp, rfl⟩)
  | startReply c st r => cases h; exact .inr (.inr (.inl ⟨_, _, rfl⟩))
  | dataReply c p st => cases h; exact .inr (.inr (.inr (.inl ⟨_, _, rfl⟩)))
  | endReply c sl => cases h; exact .inr (.inr (.inr (.inr ⟨_, _, rfl⟩)))
  | reset | crcInit | crcByte | crcFin | crcSpan | encStart | encData | encEnd | refSreply | refDreply | refEreply
  | decSreply | decDreply | decEreply | clsStart | clsData | segPage | segSub | retry | stepStart | stepPage | stepEnd
  | run => simp [Instr.onWire] at hi

/-- What one step can do: a reset; a command or frame on the test bench, when nothing runs; the host's SEND; or one phase of the
sequencer. -/
theorem step_cases {s t : State} (h : step s = .next t) :
    (s.pinUp = true ∧ t = s.nextInput.toReset) ∨
    (∃ b i, s.pinUp = false ∧ s.running = false ∧ s.bench = some b ∧ decode (s.ctx b.ending) b.word = .ok i ∧ i.onWire = true ∧
      exec i { s with bench := none } = .next t) ∨
    (∃ o, s.pinUp = false ∧ s.benchWord = none ∧ s.command = some o ∧ exec (.send o) s.nextInput = .next t) ∨
    (s.pinUp = false ∧ s.benchWord = none ∧ s.command = none ∧ advance s.nextInput = .next t) := by
  cases hp : s.pinUp with
  | true =>
    rw [step_reset hp] at h
    cases h
    exact .inl ⟨rfl, rfl⟩
  | false =>
    refine .inr ?_
    cases hb : s.benchWord with
    | some b =>
      rw [step_bench hp hb] at h
      cases hr : s.running with
      | true => simp [State.benchWord_of_running hr] at hb
      | false =>
        rw [State.benchWord_of_rest hr] at hb
        simp only [runWord] at h
        split at h
        · rename_i i hd
          exact .inl ⟨b, i, rfl, rfl, hb, hd, onWire_of_decode hd, h⟩
        · cases h
    | none =>
      refine .inr ?_
      cases hc : s.command with
      | some o => exact .inl ⟨o, rfl, rfl, rfl, by rwa [step_command hp hb hc] at h⟩
      | none => exact .inr ⟨rfl, rfl, rfl, by rwa [step_pause hp hb hc] at h⟩

/-- While anything runs, a step is a reset, the host's SEND or one phase: no bench word is executed (R8, R264). -/
theorem step_running {s : State} (h : s.running = true) (hp : s.pinUp = false) (hc : s.command = none) :
    step s = advance s.nextInput := step_pause hp (State.benchWord_of_running h) hc

end Sys2Proof.Machine
end

