-- ==== Sys2Proof/Tests/Slice0.lean ====
section
/-! SUPPORT. The model's own tests. Expected values are the spec's (95_test_vectors.md, quoted by its vector numbers V…, P…) or
read off the layouts of 30_encoding.md. Then one witness for the hypotheses of each statement. -/

namespace Sys2Proof.Machine.Tests

/-! ## Helpers -/

/-- The outcome is a next state of which `p` holds. -/
def goes (o : Out) (p : State → Bool) : Bool :=
  match o with
  | .next t => p t
  | .fault _ => false
  | .refused _ => false

/-- The outcome is this fault. -/
def faults (o : Out) (f : Fault) : Bool :=
  match o with
  | .next _ => false
  | .fault g => g == f
  | .refused _ => false

/-- The outcome is this refusal. -/
def refuses (o : Out) (f : Refusal) : Bool :=
  match o with
  | .next _ => false
  | .fault _ => false
  | .refused g => g == f

/-- Reset, with queued answers of the environment. -/
def answered (tx : List TxAnswer) (rx : List RxAnswer) (ticks : Nat) : State :=
  { State.reset with txAns := tx, rxAns := rx, ticks := ticks }

/-- A start-reply with status `st` (OKS for 0x01, BUSY for 0x02 in the notation of Part 3). -/
def sreply (st : Byte) : RxAnswer := .bytes [0x5A, 0x5A, 0xC3, 0x00, st, 0x00, 0x5F, 0x5F, 0x5A, 0x5A]

/-- `A(p,st)` of Part 3. -/
def dreply (p st : Byte) : RxAnswer := .bytes [0x5A, 0x5A, 0xD0, 0x00, p, st]

/-- The 8-byte end-reply of P5. -/
def ereply : RxAnswer := .bytes [0x5A, 0x5A, 0xC3, 0x00, 0x5F, 0x5F, 0x5A, 0x5A]

/-- Reset, with the host presenting the pin's level and a command. -/
def presented (rst : Bool) (c : Option Byte) : State := { State.reset with inputs := [⟨rst, c⟩] }

/-- Reset, with a word on the test bench. -/
def benched (w : List Byte) : State := { State.reset with bench := some ⟨false, w⟩ }

/-! ## WellFormed: an ill-formed term for each check -/

theorem test_wf_data_page_zero : (Instr.data 0 3 0 1 (zeros 52)).wf = false := by decide
theorem test_wf_data_page_62 : (Instr.data 0 3 62 1 (zeros 52)).wf = false := by decide
theorem test_wf_data_sub_zero : (Instr.data 0 3 1 0 (zeros 52)).wf = false := by decide
theorem test_wf_data_sub_six : (Instr.data 0 3 1 6 (zeros 52)).wf = false := by decide
theorem test_wf_data_payload_length : (Instr.data 0 3 1 1 (zeros 51)).wf = false := by decide
theorem test_wf_data_pad_of_sub_five : (Instr.data 0 3 1 5 (zeros 51 ++ [1])).wf = false := by decide
theorem test_wf_data_last : (Instr.data 1 15 61 5 (zeros 52)).wf = true := by decide
theorem test_wf_encData_length : (Instr.encData (zeros 53)).wf = false := by decide
theorem test_wf_segPage_zero : (Instr.segPage 0 0).wf = false := by decide
theorem test_wf_segPage_62 : (Instr.segPage 1 62).wf = false := by decide
theorem test_wf_segSub_zero : (Instr.segSub 0).wf = false := by decide
theorem test_wf_segSub_six : (Instr.segSub 6).wf = false := by decide

/-! ## Decoding: a word of each row with a bit pattern, written out from R82 to R87 and R98 -/

/-- V13. -/
theorem test_decode_start : decode .default [0xA5, 0xA5, 0xCF, 0x00, 0x1F, 0x00, 0xAF, 0xAF, 0xA5, 0xA5] = .ok (.start 1 15) := by
  decide
/-- V10 and V14: the same bytes, told apart by the position (R97). -/
theorem test_decode_start_or_end :
    decode ⟨.eight, false⟩ [0xA5, 0xA5, 0xC3, 0x00, 0x03, 0x00, 0xAF, 0xAF, 0xA5, 0xA5] = .ok (.start 0 3) ∧
    decode ⟨.eight, true⟩ [0xA5, 0xA5, 0xC3, 0x00, 0x03, 0x00, 0xAF, 0xAF, 0xA5, 0xA5] = .ok (.endFrame 3) := by decide
/-- V16: an even slot's END needs no position. -/
theorem test_decode_end : decode .default [0xA5, 0xA5, 0xC3, 0x00, 0x02, 0x00, 0xAF, 0xAF, 0xA5, 0xA5] = .ok (.endFrame 2) := by
  decide
/-- V23a. -/
theorem test_decode_data :
    decode .default ([0xA5, 0xA5, 0xD0, 0x00, 0x13, 0x01, 0x01, 0x00] ++ (List.range 52).map (BitVec.ofNat 8)
      ++ [0xAF, 0xAF, 0xA5, 0xA5]) = .ok (.data 1 3 1 1 ((List.range 52).map (BitVec.ofNat 8))) := by decide
/-- V25. -/
theorem test_decode_startReply :
    decode .default [0x5A, 0x5A, 0xFF, 0xFF, 0xFF, 0xEE, 0x5F, 0x5F, 0x5A, 0x5A] = .ok (.startReply 0xFFFF 0xFF 0xEE) := by decide
/-- V31h. -/
theorem test_decode_dataReply : decode .default [0x5A, 0x5A, 0x34, 0x12, 0x63, 0x00] = .ok (.dataReply 0x1234 0x63 0x00) := by decide
/-- V27 and V28. -/
theorem test_decode_endReply :
    decode ⟨.eight, true⟩ [0x5A, 0x5A, 0xC3, 0x00, 0x5F, 0x5F, 0x5A, 0x5A] = .ok (.endReply 0x00C3 0x5F5F) ∧
    decode ⟨.ten, true⟩ [0x5A, 0x5A, 0xC3, 0x00, 0x03, 0x00, 0x5F, 0x5F, 0x5A, 0x5A] = .ok (.endReply 0x00C3 0x0003) := by decide
/-- R98: any byte is a SEND operand. -/
theorem test_decode_send : decode .default [0xFF] = .ok (.send 0xFF) := by decide
/-- A table word is numbered from byte 0, the low byte. -/
theorem test_table_word : decodeTableWord 80 0xA5A5AFAF001300C3A5A5 = some (.start 1 3) := by decide
/-- Rejections by name: slot nibbles that differ (R82), a start frame with the device's marker, a host magic in a data-reply, a
command that is none, a length that is none. -/
theorem test_decode_rejects :
    decode .default [0xA5, 0xA5, 0xC3, 0x00, 0x14, 0x00, 0xAF, 0xAF, 0xA5, 0xA5] = .reject .fixedBits ∧
    decode .default [0xA5, 0xA5, 0xC3, 0x00, 0x13, 0x00, 0x5F, 0x5F, 0x5A, 0x5A] = .reject .endMarker ∧
    decode .default [0xA5, 0xA5, 0xD0, 0x00, 0x01, 0x00] = .reject .magic ∧
    decode .default [0xA5, 0xA5, 0xB3, 0x00, 0x13, 0x00, 0xAF, 0xAF, 0xA5, 0xA5] = .reject .command ∧
    decode .default [0x5A, 0x5A, 0xC3] = .reject .length := by decide

/-! ## The checksum -/

/-- R121. -/
theorem test_crcInit : goes (exec .crcInit State.reset) fun t => t.crcReg == 0xFFFFFFFF && t.crcInit := by decide
/-- V9m. -/
theorem test_crcByte :
    goes (exec (.crcByte 0x31) { State.reset with crcReg := 0xFFFFFFFF, crcInit := true }) fun t => t.crcReg == 0x7C231048 := by
  decide
/-- V9m. -/
theorem test_crcFin :
    goes (exec .crcFin { State.reset with crcReg := 0x7C231048, crcInit := true }) fun t =>
      t.result == .word 0x83DCEFB7 && t.crcReg == 0x7C231048 := by decide
/-- V2. -/
theorem test_crcSpan :
    goes (exec (.crcSpan [0x31, 0x32, 0x33, 0x34, 0x35, 0x36, 0x37, 0x38, 0x39]) State.reset) fun t =>
      t.result == .word 0xCBF43926 && t.crcReg == 0x340BC6D9 := by decide +kernel
/-- V1. -/
theorem test_crcSpan_empty : goes (exec (.crcSpan []) State.reset) fun t => t.result == .word 0 := by decide

/-! ## The encoders -/

/-- V13. -/
theorem test_encStart :
    goes (exec .encStart { State.reset with plane := 1, slot := 15 }) fun t =>
      t.txFrame == [0xA5, 0xA5, 0xCF, 0x00, 0x1F, 0x00, 0xAF, 0xAF, 0xA5, 0xA5] := by decide
/-- V16. -/
theorem test_encEnd :
    goes (exec .encEnd { State.reset with plane := 1, slot := 2 }) fun t =>
      t.txFrame == [0xA5, 0xA5, 0xC3, 0x00, 0x02, 0x00, 0xAF, 0xAF, 0xA5, 0xA5] := by decide
/-- V23a: payload 00 to 35, of which 34 and 35 are overwritten. -/
theorem test_encData :
    goes (exec (.encData ((List.range 54).map (BitVec.ofNat 8))) { State.reset with plane := 1, slot := 3, page := 1, sub := 1 })
      fun t => t.txFrame == [0xA5, 0xA5, 0xD0, 0x00, 0x13, 0x01, 0x01, 0x00] ++ (List.range 52).map (BitVec.ofNat 8)
        ++ [0xAF, 0xAF, 0xA5, 0xA5] := by decide
/-- V19: sub-frame 5, the checksum at offset 40 and sixteen pad bytes. -/
theorem test_encData_last :
    goes (exec (.encData (List.replicate 32 0xAA ++ [0xA4, 0x6C, 0x09, 0xD5]))
        { State.reset with slot := 3, page := 1, sub := 5, txBuf := Vector.replicate 64 0xEE })
      fun t => t.txFrame == [0xA5, 0xA5, 0xD0, 0x00, 0x03, 0x01, 0x05, 0x00] ++ List.replicate 32 0xAA ++ [0xA4, 0x6C, 0x09, 0xD5]
        ++ List.replicate 16 0x00 ++ [0xAF, 0xAF, 0xA5, 0xA5] := by decide
/-- V25. -/
theorem test_refSreply :
    goes (exec (.refSreply 0xFFFF 0xFF 0xEE) State.reset) fun t =>
      t.result == .bytes [0x5A, 0x5A, 0xFF, 0xFF, 0xFF, 0xEE, 0x5F, 0x5F, 0x5A, 0x5A] := by decide
/-- V26. -/
theorem test_refDreply :
    goes (exec (.refDreply 0x00D0 0x3D 0x23) State.reset) fun t => t.result == .bytes [0x5A, 0x5A, 0xD0, 0x00, 0x3D, 0x23] := by
  decide
/-- V27. -/
theorem test_refEreply :
    goes (exec (.refEreply 0x00C3 0x0003) State.reset) fun t =>
      t.result == .bytes [0x5A, 0x5A, 0xC3, 0x00, 0x5F, 0x5F, 0x5A, 0x5A] := by decide
/-- V28. -/
theorem test_refEreply_ten :
    goes (exec (.refEreply 0x00C3 0x0003) { State.reset with endLen := .ten }) fun t =>
      t.result == .bytes [0x5A, 0x5A, 0xC3, 0x00, 0x03, 0x00, 0x5F, 0x5F, 0x5A, 0x5A] := by decide

/-! ## The frames' rows (log 11) -/

/-- V11's bytes stand in `tx_buf`. -/
theorem test_start :
    goes (exec (.start 1 3) State.reset) fun t => t.txFrame == [0xA5, 0xA5, 0xC3, 0x00, 0x13, 0x00, 0xAF, 0xAF, 0xA5, 0xA5] := by
  decide
/-- V17's bytes. -/
theorem test_endFrame :
    goes (exec (.endFrame 15) State.reset) fun t => t.txFrame == [0xA5, 0xA5, 0xCF, 0x00, 0x0F, 0x00, 0xAF, 0xAF, 0xA5, 0xA5] := by
  decide
/-- V21's bytes. -/
theorem test_data :
    goes (exec (.data 0 3 61 4 (zeros 52)) State.reset) fun t =>
      t.txFrame == [0xA5, 0xA5, 0xD0, 0x00, 0x03, 0x3D, 0x04, 0x00] ++ List.replicate 52 0x00 ++ [0xAF, 0xAF, 0xA5, 0xA5] := by
  decide
/-- V31e: BUSY is a valid decode. -/
theorem test_startReply :
    goes (exec (.startReply 0x0000 0x02 0x00) State.reset) fun t =>
      t.result == .startReply (.ok ⟨0x0000, 0x02, 0x00⟩) && t.lastStatus == 0x02 && t.rxLen == 0 := by decide
/-- V31h. -/
theorem test_dataReply :
    goes (exec (.dataReply 0x1234 0x63 0x00) State.reset) fun t =>
      t.lastCmd16 == 0x1234 && t.lastPage == 0x63 && t.lastStatus == 0x00 := by decide
/-- V27 decoded (2.3): the marker stands in `slot16`. -/
theorem test_endReply :
    goes (exec (.endReply 0x00C3 0x0003) State.reset) fun t => t.lastSlot16 == 0x5F5F && t.lastCmd16 == 0x00C3 := by decide

/-! ## The decoders and classifiers -/

/-- V31d: magic is tested before the marker. -/
theorem test_decSreply_magic :
    goes (exec (.decSreply [0x5B, 0x5A, 0xC3, 0x00, 0x01, 0x00, 0x00, 0x00, 0x00, 0x00]) State.reset) fun t =>
      t.result == .startReply (.err .magic) := by decide
/-- V31c. -/
theorem test_decSreply_marker :
    goes (exec (.decSreply [0x5A, 0x5A, 0xC3, 0x00, 0x01, 0x00, 0xAF, 0xAF, 0xA5, 0xA5]) State.reset) fun t =>
      t.result == .startReply (.err .endMarker) && t.lastCmd16 == 0 := by decide
/-- V31h. -/
theorem test_decDreply :
    goes (exec (.decDreply [0x5A, 0x5A, 0x34, 0x12, 0x63, 0x00]) State.reset) fun t =>
      t.result == .dataReply (.ok ⟨0x1234, 0x63, 0x00⟩) := by decide
/-- V31f. -/
theorem test_decDreply_length :
    goes (exec (.decDreply [0x5A, 0x5A, 0xD0, 0x00, 0x01]) State.reset) fun t => t.result == .dataReply (.err .length) := by
  decide
/-- V31i. -/
theorem test_decEreply :
    goes (exec (.decEreply [0x5A, 0x5A, 0xC3, 0x00, 0x03, 0x00, 0x5F, 0x5F]) State.reset) fun t =>
      t.result == .endReply (.err .endMarker) := by decide
/-- V31j. -/
theorem test_decEreply_ten :
    goes (exec (.decEreply [0x5A, 0x5A, 0xC3, 0x00, 0x5F, 0x5F, 0x5A, 0x5A]) { State.reset with endLen := .ten }) fun t =>
      t.result == .endReply (.err .length) := by decide
/-- V32, V33. -/
theorem test_clsStart :
    [0x01, 0x02, 0xFF, 0x00, 0x03, 0xFE].map startClassOf =
      [.ok, .busy, .error, .unrecognized 0x00, .unrecognized 0x03, .unrecognized 0xFE] := by decide
/-- V34, V35. -/
theorem test_clsData :
    [0x00, 0x10, 0x2F, 0x30, 0xFF, 0x01, 0x0F, 0x1F, 0x20, 0x26, 0x31, 0x40].map dataClassOf =
      [.ok, .crcFamily 0x10, .missing 15, .timeout, .unknown 0xFF, .unknown 0x01, .unknown 0x0F, .crcFamily 0x1F, .missing 0,
        .missing 6, .unknown 0x31, .unknown 0x40] := by decide

/-! ## The segmenter -/

/-- R52: page 61 of plane 1 begins at address 14880 and has 120 bytes; byte 120 of the buffer is padding. -/
theorem test_segPage :
    goes (exec (.segPage 1 61) { State.reset with img := [(14880, 1), (29880, 2), (29999, 3)] }) fun t =>
      t.pageLen == 120 && t.pageBuf.toList.take 2 == [2, 0] && (t.pageBuf.toList.drop 119).take 2 == [3, 0] := by decide
/-- R52: a page that does not exist. -/
theorem test_segPage_none : faults (exec (.segPage 0 62) State.reset) (.pageRange 62) := by decide
/-- V39: sub-frame 4 is bytes 162 to 215 of the buffer. -/
theorem test_segSub :
    goes (exec (.segSub 4) { State.reset with pageBuf := bufOf 248 ((List.range 248).map (BitVec.ofNat 8)) }) fun t =>
      t.result == .bytes ((List.range 54).map fun i => BitVec.ofNat 8 (162 + i)) := by decide
/-- V23c: sub-frame 5 is bytes D8 to F7 and the checksum, low byte first. -/
theorem test_segSub_last :
    goes (exec (.segSub 5) { State.reset with pageBuf := bufOf 248 ((List.range 248).map (BitVec.ofNat 8)), pageCrc := 0x55991EAD })
      fun t => t.result == .bytes ((List.range 32).map (fun i => BitVec.ofNat 8 (216 + i)) ++ [0xAD, 0x1E, 0x99, 0x55]) := by
  decide

/-! ## The host's commands and the sequencer -/

/-- V44. -/
theorem test_send : goes (exec (.send 0x13) State.reset) fun t => t.slot == 3 && t.fsm == .starting && t.attempt == 1 := by
  decide
/-- V45. -/
theorem test_send_busy :
    goes (exec (.send 0x05) { State.reset with fsm := .sendingPage, slot := 3 }) fun t => t.slot == 3 && t.fsm == .sendingPage := by
  decide
/-- P8 (3). -/
theorem test_reset :
    goes (exec .reset { State.reset with fsm := .starting, slot := 15, phase := .rx, lastStatus := 2 }) fun t =>
      t.fsm == .idle && t.slot == 0 && t.phase == .idle && t.lastStatus == 0 := by decide
/-- V47: no WaitUnit. -/
theorem test_stepStart :
    goes (exec .stepStart (answered [.ok] [sreply 0x00] 1)) fun t =>
      t.result == .attempt (.retry .startUnrecognized) && t.ticks == 1 := by decide
/-- R213: BUSY waits one unit, and without it the block stands at the wait. -/
theorem test_stepStart_busy :
    goes (exec .stepStart (answered [.ok] [sreply 0x02] 0)) fun t => t.phase == .backoff && t.result == .startClass .busy := by
  decide
/-- V49: the reply's page is not compared. -/
theorem test_stepPage :
    goes (exec .stepPage { answered [.ok, .ok, .ok, .ok, .ok] [dreply 0x63 0x00] 0 with page := 7 }) fun t =>
      t.result == .attempt .success && t.lastPage == 0x63 && t.sub == 0 := by decide
/-- V50. -/
theorem test_stepPage_unknown :
    goes (exec .stepPage { answered [.ok, .ok, .ok, .ok, .ok] [dreply 0x07 0x01] 0 with page := 7 }) fun t =>
      t.result == .attempt (.retry .statusUnknown) && t.lastStatus == 0x01 := by decide
/-- P6 (a), attempt 1. -/
theorem test_stepEnd :
    goes (exec .stepEnd (answered [.ok] [.bytes [0x5A, 0x5A, 0xC3, 0x00, 0x5F, 0x5F, 0x5A, 0x5B]] 0)) fun t =>
      t.result == .attempt (.retry .endMarker) := by decide
/-- P2, the start step: BUSY, BUSY, OK. -/
theorem test_retry :
    goes (exec (.retry .start) (answered [.ok, .ok, .ok] [sreply 0x02, sreply 0x02, sreply 0x01] 2)) fun t =>
      t.result == .step .ok && t.attempt == 3 && t.lastCause == .none && t.lastStatus == 0x01 && t.ticks == 0 := by decide
/-- P3: always BUSY. -/
theorem test_run_busy :
    goes (exec .run (answered [.ok, .ok, .ok] [sreply 0x02, sreply 0x02, sreply 0x02] 3)) fun t =>
      t.fsm == .failed && t.failStep == .start && t.failPage == 0 && t.failCause == .startBusy && t.attempt == 3 && t.ticks == 0 := by
  decide
/-- P4, shortened: a start, then a page that fails three ways. -/
theorem test_run_page :
    goes (exec .run (answered (List.replicate 16 .ok)
        [sreply 0x01, .bytes [0x5A, 0x5A, 0xD0, 0x00], .bytes [0xA5, 0xA5, 0xD0, 0x00, 0x02, 0x00], dreply 0x02 0x30] 0)) fun t =>
      t.fsm == .failed && t.failStep == .page && t.failPage == 1 && t.failCause == .pageTimeout && t.lastStatus == 0x30 := by
  decide
/-- R265: reset and SEND together, reset wins. -/
theorem test_step_reset_wins :
    goes (step { presented true (some 0x05) with fsm := .failed, failStep := .page }) fun t => t.fsm == .idle && t.slot == 0 := by
  decide
/-- The word of a table row, placed by withFetchWord, is executed by the next step. -/
theorem test_step_fetch :
    goes (step (State.reset.withFetchWord 48 0x233D00D05A5A)) fun t => t.result == .dataReply (.ok ⟨0x00D0, 0x3D, 0x23⟩) := by
  decide
/-- R264, R63: while a session runs a bench word is not executed, and the frame sent is the sequencer's own. -/
theorem test_step_bench_waits :
    goes (step { answered [.ok] [] 0 with
        fsm := .starting, phase := .tx, attempt := 1, txLen := 1, bench := some ⟨false, [0x5A, 0x5A, 0xD0, 0x00, 0x3D, 0x23]⟩ })
      fun t => t.phase == .rx && t.trace == [.tx [0x00] .ok] && t.bench.isSome := by decide
/-- R98: a SEND on the command port. -/
theorem test_step_command : goes (step (presented false (some 0x13))) fun t => t.slot == 3 && t.fsm == .starting && t.inputs == [] := by
  decide
/-- A word that is no row (log 18). -/
theorem test_step_refuses : refuses (step (benched [1, 2, 3])) (.undecodable .length) := by decide

/-! ## Witnesses: for each statement with hypotheses, values that meet them, at the ends of each clause's range -/

/-- A session in its place: a step of RUN at this phase. -/
def session (fsm : Fsm) (q : Plane) (p : Page) (k : Sub) (att : BitVec 2) (b : Body) (ph : Phase) : State :=
  { State.reset with fsm := fsm, plane := q, page := p, sub := k, attempt := att, body := b, phase := ph, scope := .run }

/-- The last sub-frame of the last page, its page registers as SEG.PAGE loads them. -/
def loadedLast : State := (session .sendingPage 1 61 5 1 .page .tx).loadPage 1 61

/-- The same, its frame about to be sent. -/
def sendingLast : State := loadedLast.putFrame loadedLast.dueFrame

theorem putFrame_dueFrame (s : State) (f : List Byte) : (s.putFrame f).dueFrame = s.dueFrame := rfl

/-- The start step of plane 0 after its third failure. -/
def startLost : State := { session .starting 0 0 0 3 .start (.ret (.failed .startBusy)) with lastCause := .startBusy }

/-- The last page after its third failure. -/
def pageLost : State :=
  { session .sendingPage 1 61 0 3 .page (.ret (.failed .pageCrc)) with lastCause := .pageCrc, pageLen := 120 }

/-- The end step after its third failure. -/
def endLost : State := { session .ending 1 0 0 3 .finish (.ret (.failed .endMarker)) with lastCause := .endMarker }

/-- The end step, just succeeded. -/
def endWon : State := session .ending 1 0 0 1 .finish (.ret .ok)

/-- The last page of plane 0, just succeeded. -/
def pageWon : State := { session .sendingPage 0 61 0 2 .page (.ret .ok) with pageLen := 120 }

/-- A failed session. -/
def lost : State :=
  { State.reset with fsm := .failed, page := 61, plane := 1, attempt := 3, failStep := .page, failPlane := 1, failPage := 61
                     failCause := .pageCrc, lastCause := .pageCrc, pageLen := 120 }

theorem inv_sendingLast : Inv sendingLast := by
  simp [sendingLast, loadedLast, session, State.reset, Inv, ControlInv, PositionInv, ReportInv, State.busy, State.isDone, State.isFailed, stepOf,
    phaseFits, State.inSubFrame, State.pageLoaded, subOk, pageBytes]
  decide
theorem inv_startLost : Inv startLost := by
  simp [startLost, session, State.reset, Inv, ControlInv, PositionInv, ReportInv, State.busy, State.isDone, State.isFailed, stepOf,
    phaseFits, State.inSubFrame, State.pageLoaded]
  decide
theorem inv_pageLost : Inv pageLost := by
  simp [pageLost, session, State.reset, Inv, ControlInv, PositionInv, ReportInv, State.busy, State.isDone, State.isFailed, stepOf,
    phaseFits, State.inSubFrame, State.pageLoaded]
  decide
theorem inv_endLost : Inv endLost := by
  simp [endLost, session, State.reset, Inv, ControlInv, PositionInv, ReportInv, State.busy, State.isDone, State.isFailed, stepOf,
    phaseFits, State.inSubFrame, State.pageLoaded]
  decide
theorem inv_endWon : Inv endWon := by
  simp [endWon, session, State.reset, Inv, ControlInv, PositionInv, ReportInv, State.busy, State.isDone, State.isFailed, stepOf,
    phaseFits, State.inSubFrame, State.pageLoaded]
  decide
theorem inv_pageWon : Inv pageWon := by
  simp [pageWon, session, State.reset, Inv, ControlInv, PositionInv, ReportInv, State.busy, State.isDone, State.isFailed, stepOf,
    phaseFits, State.inSubFrame, State.pageLoaded]
  decide
theorem inv_lost : Inv lost := by
  simp [lost, State.reset, Inv, ControlInv, PositionInv, ReportInv, State.busy, State.isDone, State.isFailed, State.inSubFrame,
    State.pageLoaded]

/-- DecodeOfEncodeIsTheFrame: an odd slot's START and END, each where the position tells it apart; the last DATA frame; both
END_REPLY lengths; a START_REPLY; a SEND. -/
theorem witness_DecodeOfEncode :
    (⟨.eight, false⟩ : Ctx).tells (.start 0 15) = true ∧ (⟨.ten, true⟩ : Ctx).tells (.endFrame 15) = true ∧
    (Instr.data 1 15 61 5 (zeros 52)).wf = true ∧ (⟨.ten, true⟩ : Ctx).tells (.endReply 0xFFFF 0xFFFF) = true ∧
    (⟨.eight, false⟩ : Ctx).tells (.endReply 0 0) = true ∧ (⟨.ten, false⟩ : Ctx).tells (.startReply 0 1 0) = true ∧
    encode .default (.start 0 15) = some [0xA5, 0xA5, 0xCF, 0x00, 0x0F, 0x00, 0xAF, 0xAF, 0xA5, 0xA5] ∧
    encode .default (.send 0) = some [0] := by decide

/-- EncodeOfDecodeIsTheWord: V11 is accepted. -/
theorem witness_EncodeOfDecode : decode .default [0xA5, 0xA5, 0xC3, 0x00, 0x13, 0x00, 0xAF, 0xAF, 0xA5, 0xA5] = .ok (.start 1 3) := by
  decide
theorem witness_StartAndEndCollide :
    (1 : Slot).getLsbD 0 = true ∧ (15 : Slot).getLsbD 0 = true ∧ (0 : Slot).getLsbD 0 = false ∧ (14 : Slot).getLsbD 0 = false := by
  decide
theorem witness_StepRunsThePresentedWord :
    (benched [0x13]).pinUp = false ∧ (benched [0x13]).running = false ∧ (benched [0x13]).bench = some ⟨false, [0x13]⟩ ∧
    decode ⟨(benched [0x13]).endLen, false⟩ [0x13] = .ok (.send 0x13) ∧
    (presented false (some 5)).pinUp = false ∧ (presented false (some 5)).bench = none ∧ (presented false (some 5)).command = some 5 ∧
    (session .starting 0 0 0 1 .start .tx).running = true ∧ (session .starting 0 0 0 1 .start .tx).command = none := by decide
theorem witness_FetchWordIsExecutedNext :
    State.reset.running = false ∧ State.reset.pinUp = false ∧
    decode ⟨State.reset.endLen, false⟩ (wordBytes 8 0x13) = .ok (.send 0x13) := by decide
theorem witness_UndecodableWordIsRefused :
    (benched [1, 2]).pinUp = false ∧ (benched [1, 2]).running = false ∧ (benched [1, 2]).bench = some ⟨false, [1, 2]⟩ ∧
    decode ⟨(benched [1, 2]).endLen, false⟩ [1, 2] = .reject .length := by decide

/-- StepRunsTheSequencedOperation: a place for each kind of operation, one whose operation completes and one whose operation
faults. -/
theorem witness_StepRunsTheSequencedOperation :
    (session .sendingPage 0 1 0 1 .page .segPage).nextOp = some (.segPage 0 1) ∧
    (session .sendingPage 0 1 5 1 .page .segSub).nextOp = some (.segSub 5) ∧
    (session .starting 0 0 0 1 .start (.enc [])).nextOp = some .encStart ∧
    (session .starting 0 0 0 1 .start .dec).nextOp = some (.decSreply []) ∧
    (session .starting 0 0 0 1 .start (.cls 2)).nextOp = some (.clsStart 2) ∧
    goes (exec (.segSub 5) (session .sendingPage 0 1 5 1 .page .segSub)) (fun _ => true) ∧
    faults (exec (.segPage 0 0) (session .sendingPage 0 0 0 1 .page .segPage)) (.pageRange 0) := by decide

/-- ChecksumOperations, and UnspecifiedChecksumIsAnyValue. -/
theorem witness_ChecksumOperations :
    ({ State.reset with crcInit := true }).crcInit = true ∧ State.reset.crcInit = false := ⟨rfl, rfl⟩
theorem witness_DataEncoder : (zeros 54).length = 54 ∧ (zeros 36).length = 36 := by decide
theorem witness_EndMarkerOverwritesPayload :
    (zeros 54).length = 54 ∧ (zeros 52 ++ [1, 2]).length = 54 ∧ (zeros 54).take 52 = (zeros 52 ++ [1, 2]).take 52 ∧
    (zeros 32).length = 32 := by decide
theorem witness_HostFrameRows : (Instr.data 0 0 1 1 (zeros 52)).wf = true ∧ (Instr.data 1 15 61 5 (zeros 52)).wf = true := by decide
theorem witness_ReferenceEncoders : State.reset.endLen = .eight ∧ ({ State.reset with endLen := .ten }).endLen = .ten := ⟨rfl, rfl⟩

/-- StartReplyDecoder: a length, a magic, a marker failure (V31, V29, V31b), and V24. -/
theorem witness_StartReplyDecoder :
    [0x5A, 0x5A, 0xC3, 0x00, 0x01, 0x00, 0x5F, 0x5F, 0x5A, 0x5A, (0x00 : Byte)].length ≠ 10 ∧
    [0xA5, 0xA5, 0xC3, 0x00, 0x01, 0x00, 0x5F, 0x5F, 0x5A, (0x5A : Byte)].length = 10 ∧
    [0xA5, 0xA5, 0xC3, 0x00, 0x01, 0x00, 0x5F, 0x5F, 0x5A, (0x5A : Byte)].take 2 ≠ [0x5A, 0x5A] ∧
    [0x5A, 0x5A, 0xC3, 0x00, 0x01, 0x00, 0x5F, 0x5F, 0x5A, (0x5B : Byte)].take 2 = [0x5A, 0x5A] ∧
    [0x5A, 0x5A, 0xC3, 0x00, 0x01, 0x00, 0x5F, 0x5F, 0x5A, (0x5B : Byte)].drop 6 ≠ [0x5F, 0x5F, 0x5A, 0x5A] ∧
    startReplyOf [0x5A, 0x5A, 0xC3, 0x00, 0x01, 0x00, 0x5F, 0x5F, 0x5A, 0x5A] = .ok ⟨0x00C3, 0x01, 0x00⟩ := by decide
/-- DataReplyDecoder: V31f, V31g, V26. -/
theorem witness_DataReplyDecoder :
    [0x5A, 0x5A, 0xD0, 0x00, (0x01 : Byte)].length ≠ 6 ∧
    [0x5A, 0xA5, 0xD0, 0x00, 0x01, (0x00 : Byte)].length = 6 ∧ [0x5A, 0xA5, 0xD0, 0x00, 0x01, (0x00 : Byte)].take 2 ≠ [0x5A, 0x5A] ∧
    dataReplyOf [0x5A, 0x5A, 0xD0, 0x00, 0x3D, 0x23] = .ok ⟨0x00D0, 0x3D, 0x23⟩ := by decide
/-- EndReplyDecoder: both lengths; V31k, a host magic, V31i, V27, V28. -/
theorem witness_EndReplyDecoder :
    [0x5A, 0x5A, 0xC3, 0x00, 0x5F, 0x5F, (0x5A : Byte)].length ≠ State.reset.endLen.bytes ∧
    [0xA5, 0x5A, 0xC3, 0x00, 0x5F, 0x5F, 0x5A, (0x5A : Byte)].length = State.reset.endLen.bytes ∧
    [0xA5, 0x5A, 0xC3, 0x00, 0x5F, 0x5F, 0x5A, (0x5A : Byte)].take 2 ≠ [0x5A, 0x5A] ∧
    [0x5A, 0x5A, 0xC3, 0x00, 0x03, 0x00, 0x5F, (0x5F : Byte)].take 2 = [0x5A, 0x5A] ∧
    [0x5A, 0x5A, 0xC3, 0x00, 0x03, 0x00, 0x5F, (0x5F : Byte)].drop (State.reset.endLen.bytes - 4) ≠ [0x5F, 0x5F, 0x5A, 0x5A] ∧
    endReplyOf .eight [0x5A, 0x5A, 0xC3, 0x00, 0x5F, 0x5F, 0x5A, 0x5A] = .ok ⟨0x00C3, 0x5F5F⟩ ∧
    endReplyOf .ten [0x5A, 0x5A, 0xC3, 0x00, 0x03, 0x00, 0x5F, 0x5F, 0x5A, 0x5A] = .ok ⟨0x00C3, 0x0003⟩ := by decide
theorem witness_ReplyRoundTrip : State.reset.endLen = .eight ∧ ({ State.reset with endLen := .ten }).endLen = .ten := ⟨rfl, rfl⟩
/-- StatusClassifiers: the ends of each range of R95 (the ranges exclude each other). -/
theorem witness_StatusClassifiers :
    [0x00, 0x01, 0x0F, 0x10, 0x1F, 0x20, 0x2F, 0x30, 0x31, (0xFF : Byte)].map dataClassOf =
      [.ok, .unknown 0x01, .unknown 0x0F, .crcFamily 0x10, .crcFamily 0x1F, .missing 0, .missing 15, .timeout, .unknown 0x31,
        .unknown 0xFF] ∧
    [0x00, 0x01, 0x02, 0x03, 0xFE, (0xFF : Byte)].map startClassOf =
      [.unrecognized 0x00, .ok, .busy, .unrecognized 0x03, .unrecognized 0xFE, .error] := by decide
/-- PageSegmenter: pages 1, 60 and 61, the last byte of each a byte of the plane. -/
theorem witness_PageSegmenter :
    (1 : Page).toNat = 1 ∧ (60 : Page).toNat ≤ 60 ∧ (61 : Page).toNat = 61 ∧ pageBytes 60 = 248 ∧ pageBytes 61 = 120 ∧
    (60 - 1) * 248 + 247 < 15000 ∧ (61 - 1) * 248 + 119 = 14999 := by decide
theorem witness_SubFrameSegmenter : (1 : Sub).toNat = 1 ∧ (4 : Sub).toNat ≤ 4 ∧ (5 : Sub).toNat = 5 := by decide
theorem witness_SegmenterStopsOutOfRange :
    (0 : Page).toNat = 0 ∧ 61 < (62 : Page).toNat ∧ 61 < (63 : Page).toNat ∧ (0 : Sub).toNat = 0 ∧ 5 < (6 : Sub).toNat ∧
    State.reset.page.toNat = 0 ∧ 61 < ({ State.reset with page := 62 }).page.toNat := by decide
theorem witness_SendOpensASession :
    State.reset.fsm = .idle ∧ lost.fsm = .failed ∧ ({ State.reset with fsm := .done }).fsm = .done ∧
    (0x1F : Byte) &&& 0x0F = 0xFF &&& 0x0F := by decide
theorem witness_SendWhileBusyDoesNothing :
    startLost.fsm = .starting ∧ pageLost.fsm = .sendingPage ∧ endLost.fsm = .ending ∧
    ({ endLost with inputs := [⟨false, some 5⟩] }).inputs = ⟨false, some 5⟩ :: [] := ⟨rfl, rfl, rfl, rfl⟩
theorem witness_ResetWinsOverSend : (presented true (some 5)).inputs = ⟨true, some 5⟩ :: [] := rfl

/-- StartAttempt: a BUSY reply with a unit elapsed, an RxErr, a failed Tx. -/
theorem witness_StartAttempt :
    (answered [.ok] [sreply 2] 1).txAns = .ok :: [] ∧ (answered [.ok] [sreply 2] 1).rxAns = sreply 2 :: [] ∧
    (∀ b, sreply 2 = .bytes b → b.length ≤ 10) ∧ startVerdict (sreply 2) = .retry .startBusy ∧
    (answered [.ok] [sreply 2] 1).ticks ≠ 0 ∧ startVerdict .err = .retry .transport ∧ (answered [.err] [] 0).txAns = .err :: [] := by
  refine ⟨rfl, rfl, ?_, by decide, by decide, rfl, rfl⟩
  rintro b h
  cases h
  decide
/-- The verdicts at the ends of each range of R94 and R95, and on the other failures in R265's order. -/
theorem witness_verdicts :
    [0x00, 0x01, 0x02, 0x03, 0xFE, 0xFF].map (fun st => startVerdict (sreply st)) =
      [.retry .startUnrecognized, .success, .retry .startBusy, .retry .startUnrecognized, .retry .startUnrecognized,
        .retry .startError] ∧
    [0x00, 0x01, 0x0F, 0x10, 0x1F, 0x20, 0x2F, 0x30, 0x31, 0xFF].map (fun st => pageVerdict (dreply 1 st)) =
      [.success, .retry .statusUnknown, .retry .statusUnknown, .retry .pageCrc, .retry .pageCrc, .retry .pageMissing,
        .retry .pageMissing, .retry .pageTimeout, .retry .statusUnknown, .retry .statusUnknown] ∧
    [ereply, .err, .bytes [0x5A, 0x5A, 0xC3, 0x00, 0x5F, 0x5F, 0x5A], .bytes [0xA5, 0x5A, 0xC3, 0x00, 0x5F, 0x5F, 0x5A, 0x5B],
        .bytes [0x5A, 0x5A, 0xC3, 0x00, 0x5F, 0x5F, 0x5A, 0x5B]].map (endVerdict .eight) =
      [.success, .retry .transport, .retry .length, .retry .magic, .retry .endMarker] := by decide
/-- PageAttempt: the first and the last page; the first and the fifth Tx failing. -/
theorem witness_PageAttempt :
    1 ≤ (1 : Page).toNat ∧ (61 : Page).toNat ≤ 61 ∧ (∀ b, dreply 0x3D 0x00 = .bytes b → b.length ≤ 6) ∧
    ({ answered [.ok, .ok, .ok, .ok, .ok] [dreply 0x3D 0x00] 0 with page := 61 }).txAns = [.ok, .ok, .ok, .ok, .ok] ++ [] ∧
    ({ answered [.ok, .ok, .ok, .ok, .ok] [dreply 0x3D 0x00] 0 with page := 61 }).rxAns = dreply 0x3D 0x00 :: [] ∧
    ({ answered [.err] [] 0 with page := 1 }).txAns = List.replicate 0 .ok ++ .err :: [] ∧
    ({ answered [.ok, .ok, .ok, .ok, .err] [] 0 with page := 61 }).txAns = List.replicate 4 .ok ++ .err :: [] := by
  refine ⟨by decide, by decide, ?_, rfl, rfl, rfl, rfl⟩
  rintro b h
  cases h
  decide
theorem witness_EndAttempt :
    (answered [.ok] [ereply] 0).txAns = .ok :: [] ∧ (answered [.ok] [ereply] 0).rxAns = ereply :: [] ∧
    (∀ b, ereply = .bytes b → b.length ≤ State.reset.endLen.bytes) ∧ (answered [.err] [] 0).txAns = .err :: [] ∧
    endVerdict .eight ereply = .success := by
  refine ⟨rfl, rfl, ?_, rfl, by decide⟩
  rintro b h
  cases h
  decide
/-- RetryFollowsTheVerdicts: a page whose first attempt fails at its fifth Tx, the second by its reply, the third not; both kinds of
verdict; and BusyWaitsThreeTimes. -/
theorem witness_Retry :
    (Exchange.txErr 4).fits .page = true ∧ (Exchange.txErr 0).fits .start = true ∧ (Exchange.reply (dreply 1 0x10)).fits .page = true ∧
    (answered ([.ok, .ok, .ok, .ok, .err] ++ List.replicate 10 .ok) [dreply 1 0x10, dreply 1 0x00] 3).txAns =
      (Exchange.txErr 4).txUsed .page ++ ((Exchange.reply (dreply 1 0x10)).txUsed .page
        ++ ((Exchange.reply (dreply 1 0x00)).txUsed .page ++ [])) ∧
    (answered [] [dreply 1 0x10, dreply 1 0x00] 3).rxAns =
      (Exchange.txErr 4).rxUsed ++ ((Exchange.reply (dreply 1 0x10)).rxUsed ++ ((Exchange.reply (dreply 1 0x00)).rxUsed ++ [])) ∧
    (Exchange.txErr 4).verdict .eight .page = .retry .transport ∧
    (Exchange.reply (dreply 1 0x10)).verdict .eight .page = .retry .pageCrc ∧
    (Exchange.reply (dreply 1 0x00)).verdict .eight .page = .success ∧
    (∀ a ∈ [sreply 2, sreply 2, sreply 2], startVerdict (a.upTo 10) = .retry .startBusy) := by decide
/-- RETRY with a failed send (P7): the first attempt ends at its third Tx, the second succeeds. -/
theorem test_retry_tx_error :
    goes (exec (.retry .page) { answered [.ok, .ok, .err, .ok, .ok, .ok, .ok, .ok] [dreply 1 0x00] 0 with page := 1 }) fun t =>
      t.result == .step .ok && t.attempt == 2 && t.lastCause == .none && t.txAns == [] := by decide
theorem witness_StepsEndOrWait : 1 ≤ (1 : Page).toNat ∧ (61 : Page).toNat ≤ 61 := by decide
/-- AnsweredSessionsTerminate: as many answers as it asks for. -/
theorem witness_AnsweredSessionsTerminate :
    1839 ≤ (answered (List.replicate 1839 .ok) (List.replicate 375 .err) 6).txAns.length ∧
    375 ≤ (answered (List.replicate 1839 .ok) (List.replicate 375 .err) 6).rxAns.length ∧
    6 ≤ (answered (List.replicate 1839 .ok) (List.replicate 375 .err) 6).ticks := by
  simp only [answered, List.length_replicate, le_refl, and_self]
/-- CleanSessionSendsTheWholeImage: P5's answers. -/
theorem witness_CleanSession :
    (List.replicate 61 (dreply 1 0x00)).length = 61 ∧ startVerdict ((sreply 1).upTo 10) = .success ∧
    endVerdict .eight (ereply.upTo (Config.EndLen.bytes .eight)) = .success ∧
    (∀ a ∈ List.replicate 61 (dreply 1 0x00) ++ List.replicate 61 (dreply 1 0x00), pageVerdict (a.upTo 6) = .success) ∧
    (answered (List.replicate 613 .ok ++ []) (sreply 1 :: List.replicate 61 (dreply 1 0x00) ++ sreply 1
      :: List.replicate 61 (dreply 1 0x00) ++ ereply :: []) 0).txAns = List.replicate 613 .ok ++ [] := by
  refine ⟨by decide, by decide, by decide, ?_, rfl⟩
  intro a h
  simp only [List.mem_append, List.mem_replicate, ne_eq, or_self] at h
  rw [h.2]
  decide
theorem witness_RunIsItsSteps : State.reset.inputs = [] ∧ goes (exec .run State.reset) (fun t => t.phase == .tx) := by decide
/-- FailedIsEnteredOneWay: each of its three steps. -/
theorem witness_FailedIsEnteredOneWay :
    (Inv startLost ∧ goes (step startLost) fun t => t.fsm == .failed) ∧ (Inv pageLost ∧ goes (step pageLost) fun t => t.fsm == .failed) ∧
    (Inv endLost ∧ goes (step endLost) fun t => t.fsm == .failed) :=
  ⟨⟨inv_startLost, by decide⟩, ⟨inv_pageLost, by decide⟩, ⟨inv_endLost, by decide⟩⟩
/-- SessionsEndInThreeWays: by Done, by Failed (above), by reset. -/
theorem witness_SessionsEndInThreeWays :
    Inv endWon ∧ endWon.busy = true ∧ (goes (step endWon) fun t => !t.busy && t.fsm == .done) ∧
    (goes (step { pageWon with inputs := [⟨true, none⟩] }) fun t => !t.busy && t.fsm == .idle) :=
  ⟨inv_endWon, rfl, by decide, by decide⟩
/-- IdleStatesAreSticky: a failed session, the host presenting nothing, a pause of the host, and a reply on the bench. -/
theorem witness_IdleStatesAreSticky :
    Inv lost ∧ lost.busy = false ∧ lost.benchWord = none ∧ (goes (step lost) fun t => t.fsm == .failed) ∧
    (goes (step { lost with inputs := [⟨false, none⟩] }) fun t => t.fsm == .failed && t.inputs == []) ∧
    (goes (step { lost with bench := some ⟨false, [0x5A, 0x5A, 0xD0, 0x00, 0x3D, 0x23]⟩ }) fun t =>
      t.fsm == .failed && t.lastPage == 0x3D && t.rxLen == 0) :=
  ⟨inv_lost, rfl, by decide, by decide, by decide, by decide⟩
/-- PositionAdvancesInOrder: from the last page of plane 0 to the start of plane 1. -/
theorem witness_PositionAdvancesInOrder :
    Inv pageWon ∧ pageWon.busy = true ∧
    (goes (step pageWon) fun t => t.busy && t.fsm == .starting && t.plane == 1 && t.page == 0) :=
  ⟨inv_pageWon, rfl, by decide⟩
theorem witness_ImageIsNeverWritten :
    (goes (exec (.segPage 0 1) State.reset) fun _ => true) ∧ (goes (step State.reset) fun _ => true) := by decide
theorem witness_SlotIsWrittenBySendOnly :
    (goes (exec (.send 0x1F) State.reset) fun t => t.slot != State.reset.slot) ∧
    (goes (exec .reset { lost with slot := 15 }) fun t => t.slot != 15) := by decide
/-- LastReplyIsWrittenByOkDecodesOnly: a start-reply at its decoder. -/
theorem witness_LastReply :
    (session .starting 0 0 0 1 .start .dec).quiet ∧
    (goes (step { session .starting 0 0 0 1 .start .dec with
        rxBuf := bufOf 10 [0x5A, 0x5A, 0xC3, 0x00, 0x01, 0x00, 0x5F, 0x5F, 0x5A, 0x5A], rxLen := 10 })
      fun t => t.lastCmd16 == 0x00C3 && t.phase == .cls 0x01) ∧
    (goes (step (session .ending 1 0 0 1 .finish .dec)) fun t => t.phase == .judge (.retry .length)) :=
  ⟨⟨rfl, rfl⟩, by decide, by decide⟩
/-- LastCauseFollowsTheAttempt: a verdict to note, and a place without one. -/
theorem witness_LastCause :
    Inv (session .starting 0 0 0 1 .start (.judge (.retry .transport))) ∧
    (goes (step (session .starting 0 0 0 1 .start (.judge (.retry .transport)))) fun t => t.lastCause == .transport) ∧
    Inv endWon ∧ endWon.quiet ∧ State.reset.busy = false ∧ (goes (exec (.send 0) State.reset) fun _ => true) ∧ (goes (exec .reset lost) fun _ => true) := by
  refine ⟨?_, by decide, inv_endWon, ⟨rfl, rfl⟩, rfl, by decide, by decide⟩
  simp [session, State.reset, Inv, ControlInv, PositionInv, ReportInv, State.busy, State.isDone, State.isFailed, stepOf, phaseFits,
    State.inSubFrame, State.pageLoaded]
  decide
theorem witness_UnansweredOperationsWait :
    sendingLast.inputs = [] ∧ sendingLast.phase = .tx ∧ sendingLast.txAns = [] ∧
    (session .ending 1 0 0 1 .finish .rx).rxAns = [] ∧ (session .starting 0 0 0 1 .start .backoff).ticks = 0 := ⟨rfl, rfl, rfl, rfl, rfl⟩
/-- ReceiveFillsRxBuf: a whole reply, one longer than asked, and RxErr. -/
theorem witness_ReceiveFillsRxBuf :
    (goes (step { session .ending 1 0 0 1 .finish .rx with rxAns := [.bytes (zeros 11)] }) fun t =>
      t.rxLen == 8 && t.rxBytes == zeros 8 && t.phase == .dec) ∧
    (goes (step { session .ending 1 0 0 1 .finish .rx with rxAns := [.err] }) fun t => t.rxLen == 0) := by decide
theorem witness_PhasesFollowTheTable :
    Inv sendingLast ∧ sendingLast.quiet ∧ goes (step sendingLast) fun t => t.phase == .tx := ⟨inv_sendingLast, ⟨rfl, rfl⟩, by decide⟩
/-- StepKeepsTheInvariant and ReachablePositions: a state on the way, and the reset state. -/
theorem witness_Invariant :
    Inv sendingLast ∧ (goes (step { sendingLast with txAns := [.ok] }) fun t => t.phase == .rx && t.sub == 0) ∧ Reachable State.reset :=
  ⟨inv_sendingLast, by decide, .boot ⟨.eight, [], [], [], 0, [], 0, rfl⟩⟩
/-- WireCarriesTheDueFrames: the last sub-frame of the last page, about to be sent, and sent. -/
theorem witness_WireCarriesTheDueFrames :
    Inv sendingLast ∧ WireInv sendingLast ∧
    (goes (step { sendingLast with txAns := [.ok] }) fun t => t.trace.length == 1) := by
  refine ⟨inv_sendingLast, ⟨fun _ _ => ?_, ?_, fun _ _ => ?_⟩, by decide⟩
  · simp only [sendingLast, loadedLast, session, State.putFrame_pageBuf, State.putFrame_pageCrc, State.loadPage_pageBuf, State.loadPage_pageCrc,
      State.putFrame_img, State.putFrame_plane, State.putFrame_page, State.loadPage_img, State.loadPage_plane, State.loadPage_page,
      bufOf_toList, pageImage, and_self]
  · simp [sendingLast, loadedLast, session]
  · rw [sendingLast, putFrame_dueFrame]
    exact State.putFrame_txFrame _ (by simp [State.dueFrame, loadedLast, session])
/-- BuffersHaveOneWriter: a step of each of the three, and the reset state. -/
theorem witness_BuffersHaveOneWriter :
    sendingLast.pinUp = false ∧ sendingLast.benchWord = none ∧
    (goes (step (session .starting 0 0 0 1 .start (.enc []))) fun t => t.txLen != 0) ∧
    (goes (step { session .starting 0 0 0 1 .start .rx with rxAns := [sreply 1] }) fun t => t.rxLen != 0) ∧
    (goes (step (session .sendingPage 0 61 0 1 .page .segPage)) fun t => t.pageLen != 0) ∧ Reachable State.reset :=
  ⟨rfl, rfl, by decide, by decide, by decide, .boot ⟨.eight, [], [], [], 0, [], 0, rfl⟩⟩
theorem witness_ImageWriteThenRead : Memory.wf [(0, 1), (29999, 0xFF)] = true := by decide
theorem witness_CanonicalImagesAreEqual :
    Memory.wf [(5, 7)] = true ∧ Memory.wf (Memory.write (Memory.write [] 5 7) 6 0) = true := by decide

end Sys2Proof.Machine.Tests
end

section
/-! PROOFS. What the compound phases of the sequencer and the host's SEND can do, said once; then the stores, each with its one
writer (R8, R50, R60, R62). -/

namespace Sys2Proof.Machine

/-! ### What the compound phases do, said once -/

/-- Neither an encoder on a page's payload nor a `Tx` is next: WireInv says nothing of a payload or a frame here. -/
def Phase.bare (b : Body) : Phase → Bool
  | .enc _ => b != .page
  | .tx => false
  | .idle | .segPage | .segSub | .rx | .dec | .cls _ | .backoff | .judge _ | .ret _ => true

theorem firstPhase_bare (b : Body) : (firstPhase b).bare b = true := by cases b <;> rfl

theorem afterDecode_bare (n : Config.EndLen) (b : Body) (r : List Byte) (b' : Body) :
    (afterDecode n b r).bare b' = true := by
  cases b with
  | start => cases h : startReplyOf r <;> simp [afterDecode, h, Phase.bare]
  | page => cases h : dataReplyOf r <;> simp [afterDecode, h, Phase.bare]
  | finish => cases h : endReplyOf n r <;> simp [afterDecode, h, Phase.bare]

theorem afterClass_bare (b : Body) (st : Byte) (b' : Body) : (afterClass b st).bare b' = true := by
  cases b with
  | start => simp only [afterClass]; split <;> rfl
  | page | finish => rfl

/-- Leaving the sub-frames moves `sub` alone (R214). -/
theorem State.leaveSubs_eq (s : State) : s.leaveSubs = { s with sub := if s.body = .page then 0 else s.sub } := by
  unfold State.leaveSubs
  split
  · rfl
  · rfl

/-- After an answered `Tx` only the sub-frame number and the phase have moved (R213 to R215). -/
theorem State.afterTx_eq (s : State) (a : TxAnswer) :
    ∃ k p, s.afterTx a = { s with sub := k, phase := p } ∧ p.bare s.body = true := by
  cases a with
  | err => exact ⟨_, .judge (.retry .transport), by simp only [State.afterTx, State.leaveSubs_eq]; rfl, rfl⟩
  | ok =>
    simp only [State.afterTx, State.leaveSubs_eq]
    split
    · exact ⟨s.sub + 1, .segSub, rfl, rfl⟩
    · exact ⟨_, .rx, rfl, rfl⟩

/-- After an answered `Rx` only the phase has moved. -/
theorem State.afterRx_eq (s : State) (a : RxAnswer) : ∃ p, s.afterRx a = s.atPhase p ∧ p.bare s.body = true := by
  cases a with
  | err => exact ⟨_, rfl, rfl⟩
  | bytes b => exact ⟨_, rfl, rfl⟩

/-- The phase `Tx`: it waits, or the next answer is used and its event emitted. -/
theorem advance_tx_cases {s t : State} (h : s.phase = .tx) (ha : advance s = .next t) :
    t = s ∨ ∃ a rest k p, s.txAns = a :: rest ∧ p.bare s.body = true ∧
      t = { s with txAns := rest, trace := s.trace ++ [.tx s.txFrame a], sub := k, phase := p } := by
  rw [advance_tx h] at ha
  cases ha
  cases hans : s.txAns with
  | nil => exact .inl (State.transmit_nil hans _)
  | cons a rest =>
    rw [State.transmit_cons hans]
    obtain ⟨k, p, heq, hp⟩ := State.afterTx_eq (State.emit { s with txAns := rest } (.tx s.txFrame a)) a
    exact .inr ⟨a, rest, k, p, rfl, hp, heq⟩

/-- The phase `Rx`: it waits, or the next answer fills `rx_buf` and its event is emitted. -/
theorem advance_rx_cases {s t : State} (h : s.phase = .rx) (ha : advance s = .next t) :
    t = s ∨ ∃ a rest p, s.rxAns = a :: rest ∧ p.bare s.body = true ∧
      t = { s with
        rxAns := rest, rxBuf := t.rxBuf, rxLen := t.rxLen, free := t.free, phase := p
        trace := s.trace ++ [.rx (replyBytes s.endLen s.body) (a.upTo (replyBytes s.endLen s.body))] } := by
  rw [advance_rx h] at ha
  cases ha
  cases hans : s.rxAns with
  | nil => exact .inl (State.request_nil hans _ _)
  | cons a rest =>
    rw [State.request_cons hans]
    obtain ⟨p, heq, hp⟩ := State.afterRx_eq ((State.receive { s with rxAns := rest }
      (a.upTo (replyBytes s.endLen s.body))).emit (.rx (replyBytes s.endLen s.body) (a.upTo (replyBytes s.endLen s.body))))
      (a.upTo (replyBytes s.endLen s.body))
    refine .inr ⟨a, rest, p, rfl, by simpa using hp, ?_⟩
    rw [heq]
    cases a <;> rfl

/-- A decoder writes the last-reply registers and the returned value (R161 to R163). -/
theorem decoderOf_eq (b : Body) (r : List Byte) (s : State) : ∃ c st p sl res,
    decoderOf b r s = .next { s with lastCmd16 := c, lastStatus := st, lastPage := p, lastSlot16 := sl, result := res } := by
  cases b with
  | start =>
    simp only [decoderOf, execDecSreply]
    cases startReplyOf r <;> exact ⟨_, _, _, _, _, rfl⟩
  | page =>
    simp only [decoderOf, execDecDreply]
    cases dataReplyOf r <;> exact ⟨_, _, _, _, _, rfl⟩
  | finish =>
    simp only [decoderOf, execDecEreply]
    cases endReplyOf s.endLen r <;> exact ⟨_, _, _, _, _, rfl⟩

/-- The phase of the decoder. -/
theorem advance_dec {s : State} (h : s.phase = .dec) :
    ∃ c st p sl res, advance s = .next { s with
      lastCmd16 := c, lastStatus := st, lastPage := p, lastSlot16 := sl, result := res
      phase := afterDecode s.endLen s.body s.rxBytes } := by
  obtain ⟨c, st, p, sl, res, hd⟩ := decoderOf_eq s.body s.rxBytes s
  exact ⟨c, st, p, sl, res, by simp only [advance, h, hd, onNext_next]; rfl⟩

/-- The phase `WaitUnit`: it waits, or one elapsed unit is used and its event emitted (R220). -/
theorem advance_backoff_cases {s t : State} (h : s.phase = .backoff) (ha : advance s = .next t) :
    t = s ∨ ∃ n, s.ticks = n + 1 ∧
      t = { s with ticks := n, trace := s.trace ++ [.waitUnit], phase := .judge (.retry .startBusy) } := by
  rw [advance_backoff h] at ha
  cases ha
  cases hn : s.ticks with
  | zero => exact .inl (State.await_zero hn _)
  | succ n => exact .inr ⟨n, rfl, State.await_succ hn _⟩

/-- The end of an attempt (R212): the body returns, RETRY's loop ends, or one more attempt begins. -/
theorem State.judge_cases (s : State) (r : AttemptResult) :
    s.judge r = (s.returns (.attempt r)).atPhase .idle ∨
    (∃ v, s.judge r = State.atPhase { s with lastCause := r.lastCause } (.ret v)) ∨
    s.judge r = State.beginAttempt { s with lastCause := r.lastCause } := by
  unfold State.judge
  cases s.scope with
  | body => exact .inl rfl
  | retry | run =>
    refine .inr ?_
    cases r with
    | success => exact .inl ⟨_, rfl⟩
    | retry c =>
      dsimp only
      split
      · exact .inl ⟨_, rfl⟩
      · exact .inr rfl

/-- RUN's continuation (R216): the next page, the next plane, the end step, or DONE. -/
theorem State.runNext_cases (s : State) :
    (∃ p, s.runNext = s.enterPage p) ∨ (∃ q, s.runNext = s.enterPlane q) ∨ s.runNext = s.enterEnd ∨ s.runNext = s.succeed := by
  unfold State.runNext
  cases s.body with
  | start => exact .inl ⟨1, rfl⟩
  | page =>
    dsimp only
    split
    · exact .inl ⟨_, rfl⟩
    · split
      · exact .inr (.inl ⟨1, rfl⟩)
      · exact .inr (.inr (.inl rfl))
  | finish => exact .inr (.inr (.inr rfl))

/-- The end of a step (R212, R216): RETRY alone returns, or RUN goes on, succeeds or fails. -/
theorem State.finishStep_cases (s : State) (r : StepResult) :
    s.finishStep r = (s.returns (.step r)).atPhase .idle ∨
    (∃ p, s.finishStep r = s.enterPage p) ∨ (∃ q, s.finishStep r = s.enterPlane q) ∨ s.finishStep r = s.enterEnd ∨
    s.finishStep r = s.succeed ∨ (∃ fs q p c, s.finishStep r = s.fail fs q p c) := by
  unfold State.finishStep
  cases s.scope with
  | body | retry => exact .inl rfl
  | run =>
    refine .inr ?_
    cases r with
    | ok =>
      obtain h | h | h | h := s.runNext_cases
      · exact .inl h
      · exact .inr (.inl h)
      · exact .inr (.inr (.inl h))
      · exact .inr (.inr (.inr (.inl h)))
    | failed c =>
      refine .inr (.inr (.inr (.inr ?_)))
      simp only [State.runFail]
      cases s.body <;> exact ⟨_, _, _, _, rfl⟩

/-- The host's SEND: ignored while a session runs, else a session is opened at plane 0 (R210, R223). -/
theorem exec_send_cases {o : Byte} {s t : State} (h : exec (.send o) s = .next t) :
    (s.busy = true ∧ t = s) ∨ (s.busy = false ∧ t = (s.openSession o).enterPlane 0) := by
  simp only [exec, execSend] at h
  cases hb : s.busy with
  | true => rw [if_pos hb] at h; cases h; exact .inl ⟨rfl, rfl⟩
  | false => rw [if_neg (by simp [hb])] at h; cases h; exact .inr ⟨rfl, rfl⟩

/-! ### The stores: one writer each -/

/-- The buffers and the checksum engine of R50, R60 to R62, and the model's test bench (log 29). -/
structure Stores where
  txBuf : Vector Byte 64
  txLen : BitVec 7
  rxBuf : Vector Byte 10
  rxLen : BitVec 4
  pageBuf : Vector Byte 248
  pageLen : BitVec 8
  pageCrc : Word
  crcReg : Word
  bench : Option BenchWord

/-- What a state's stores hold. -/
def State.stores (s : State) : Stores :=
  ⟨s.txBuf, s.txLen, s.rxBuf, s.rxLen, s.pageBuf, s.pageLen, s.pageCrc, s.crcReg, s.bench⟩

/-- What may become of the stores in a step without reset and bench word: one of TXB, RXB and PAGE with the checksum engine is
written, in the phase of its one writer, or no store at all. -/
def OneStoreWritten (s t : State) : Prop :=
  ((∃ p, s.phase = .enc p) ∧ t.stores = { s.stores with txBuf := t.txBuf, txLen := t.txLen }) ∨
  (s.phase = .rx ∧ t.stores = { s.stores with rxBuf := t.rxBuf, rxLen := t.rxLen }) ∨
  (s.phase = .segPage ∧ t.stores = { s.stores with
    pageBuf := t.pageBuf, pageLen := t.pageLen, pageCrc := t.pageCrc, crcReg := t.crcReg }) ∨
  t.stores = s.stores

/-- A phase writes one of TXB, RXB and PAGE with the checksum engine, each from its own phase, or no store at all. -/
theorem advance_stores {s t : State} (h : advance s = .next t) : OneStoreWritten s t := by
  cases hph : s.phase with
  | idle => rw [advance_idle hph] at h; cases h; exact .inr (.inr (.inr rfl))
  | segPage =>
    cases hp : pageOk s.page with
    | true => rw [advance_segPage hph hp] at h; cases h; exact .inr (.inr (.inl ⟨hph, rfl⟩))
    | false => rw [advance_segPage_fault hph hp] at h; cases h
  | segSub =>
    cases hk : subOk s.sub with
    | true => rw [advance_segSub hph hk] at h; cases h; exact .inr (.inr (.inr rfl))
    | false => rw [advance_segSub_fault hph hk] at h; cases h
  | enc p =>
    obtain ⟨f, hf, -⟩ := encodeOf_next s.body p s
    simp only [advance, hph, hf, onNext_next] at h
    cases h
    exact .inl ⟨⟨p, hph⟩, rfl⟩
  | tx =>
    refine .inr (.inr (.inr ?_))
    obtain rfl | ⟨a, rest, k, p, -, -, rfl⟩ := advance_tx_cases hph h
    · rfl
    · rfl
  | rx =>
    obtain rfl | ⟨a, rest, p, -, -, ht⟩ := advance_rx_cases hph h
    · exact .inr (.inr (.inr rfl))
    · exact .inr (.inl ⟨hph, by rw [ht]; rfl⟩)
  | dec => obtain ⟨c, st, p, sl, r, hd⟩ := advance_dec hph; rw [hd] at h; cases h; exact .inr (.inr (.inr rfl))
  | cls st => obtain ⟨c, hc⟩ := advance_cls hph; rw [hc] at h; cases h; exact .inr (.inr (.inr rfl))
  | backoff =>
    refine .inr (.inr (.inr ?_))
    obtain rfl | ⟨n, -, rfl⟩ := advance_backoff_cases hph h
    · rfl
    · rfl
  | judge r =>
    refine .inr (.inr (.inr ?_))
    rw [advance_judge hph] at h
    cases h
    obtain hj | ⟨v, hj⟩ | hj := s.judge_cases r <;> rw [hj] <;> rfl
  | ret r =>
    refine .inr (.inr (.inr ?_))
    rw [advance_ret hph] at h
    cases h
    obtain hf | ⟨p, hf⟩ | ⟨q, hf⟩ | hf | hf | ⟨fs, q, p, c, hf⟩ := s.finishStep_cases r <;> rw [hf] <;> rfl

/-- An executed SEND writes no store. -/
theorem exec_send_stores {o : Byte} {s t : State} (h : exec (.send o) s = .next t) : t.stores = s.stores := by
  obtain ⟨-, rfl⟩ | ⟨-, rfl⟩ := exec_send_cases h
  · rfl
  · rfl

/-- A step without reset and bench word writes one store from that store's phase, or none. -/
theorem step_stores {s t : State} (hp : s.pinUp = false) (hb : s.benchWord = none) (h : step s = .next t) :
    OneStoreWritten s t := by
  cases hc : s.command with
  | some o =>
    rw [step_command hp hb hc] at h
    exact .inr (.inr (.inr (exec_send_stores (s := s.nextInput) h)))
  | none =>
    rw [step_pause hp hb hc] at h
    exact advance_stores (s := s.nextInput) h

/-- An empty test bench stays empty (log 29). -/
theorem step_bench_none {s t : State} (hs : s.bench = none) (h : step s = .next t) : t.bench = none := by
  have hb : s.benchWord = none := by simp [State.benchWord, hs]
  cases hp : s.pinUp with
  | true => rw [step_reset hp] at h; cases h; exact hs
  | false =>
    rw [← hs]
    obtain ⟨-, h⟩ | ⟨-, h⟩ | ⟨-, h⟩ | h := step_stores hp hb h
    all_goals exact congrArg Stores.bench h

theorem bench_none_of_reachable {s : State} (h : Reachable s) : s.bench = none := by
  induction h with
  | boot hb => obtain ⟨_, _, _, _, _, _, _, rfl⟩ := hb; rfl
  | step _ hst ih => exact step_bench_none ih hst

/-- Settles O58: what a step may write of the stores, read off for each of them; the bench by induction on reachability. -/
theorem buffersHaveOneWriter : Obligations.BuffersHaveOneWriter := by
  unfold Obligations.BuffersHaveOneWriter
  refine ⟨fun s t hp hb h => ?_, fun s => bench_none_of_reachable⟩
  obtain ⟨henc, hst⟩ | ⟨hrx, hst⟩ | ⟨hseg, hst⟩ | hst := step_stores hp hb h
  all_goals simp only [State.stores, Stores.mk.injEq] at hst
  · exact ⟨fun _ => henc, by simp [hst], by simp [hst]⟩
  · exact ⟨by simp [hst], fun _ => hrx, by simp [hst]⟩
  · exact ⟨by simp [hst], by simp [hst], fun _ => hseg⟩
  · exact ⟨by simp [hst], by simp [hst], by simp [hst]⟩

end Sys2Proof.Machine
end

section
/-! PROOFS. What is on the wire: the bytes of a DATA frame, the frame under construction (WireInv), and every event in its place
(R9, R63, R64, R217). -/

namespace Sys2Proof.Machine

/-! ### The DATA frame: the writes of R142 give the bytes of R85 -/

/-- The eight bytes of a DATA frame before its payload region (R84). -/
def dataHeader (q : Plane) (sl : Slot) (p : Page) (k : Sub) : List Byte :=
  le16 Config.hostMagic ++ le16 Config.cmdData ++ [colorSlot q sl, p.setWidth 8, k.setWidth 8, 0x00]

@[simp] theorem dataHeader_length (q : Plane) (sl : Slot) (p : Page) (k : Sub) : (dataHeader q sl p k).length = 8 := rfl

theorem dataFrame_eq_header (q : Plane) (sl : Slot) (p : Page) (k : Sub) (b : List Byte) :
    dataFrame q sl p k b = dataHeader q sl p k ++ fit 52 b ++ le32 Config.hostEnd := rfl

theorem dataWrites_eq_header (q : Plane) (sl : Slot) (p : Page) (k : Sub) (b : List Byte) :
    dataWrites q sl p k b = fit 64 (poke (poke (dataHeader q sl p k ++ zeros 56) 8 b) 60 (le32 Config.hostEnd)) := rfl

/-- A payload poked over zeros and cut at the end of its region is the padded payload. -/
theorem take_poke_zeros {h : List Byte} (hh : h.length = 8) (b : List Byte) :
    (poke (h ++ zeros 56) 8 b).take 60 = h ++ fit 52 b := by
  have htake : h.take 60 = h := List.take_of_length_le (by omega)
  have hdrop : h.drop (8 + b.length) = [] := List.drop_eq_nil_of_le (by omega)
  have hpad : 52 ≤ 56 - b.length + b.length := by omega
  simp [poke, fit, zeros, List.take_append, List.drop_append, hh, htake, hdrop, hpad, -List.reduceReplicate]

/-- R142 and R85: writing a payload of any length and then the end-marker gives the frame's layout. -/
theorem dataWrites_eq_dataFrame (q : Plane) (sl : Slot) (p : Page) (k : Sub) (b : List Byte) :
    dataWrites q sl p k b = dataFrame q sl p k b := by
  have hlen := dataFrame_length q sl p k b
  rw [dataFrame_eq_header] at hlen ⊢
  rw [dataWrites_eq_header, poke, take_poke_zeros (dataHeader_length q sl p k), fit, List.append_assoc _ (List.drop _ _),
    ← hlen, List.take_left]

/-! ### The frame under construction -/

/-- The page registers hold the current page of the image (R31, R191): what WireInv says of a loaded page. -/
def State.PageHeld (s : State) : Prop :=
  s.pageBuf.toList = pageImage s.img s.plane s.page ∧ s.pageCrc = checksum (pageData s.img s.plane s.page)

/-- The page registers, the position's page and the image it is cut from are unchanged. -/
def SamePageSource (s t : State) : Prop :=
  t.pageBuf = s.pageBuf ∧ t.pageCrc = s.pageCrc ∧ t.img = s.img ∧ t.plane = s.plane ∧ t.page = s.page

/-- SEG.PAGE loads the page the position names (R191). -/
theorem loadPage_pageHeld (s : State) : (s.loadPage s.plane s.page).PageHeld := ⟨bufOf_toList _ _, rfl⟩

theorem pageLoaded_page_ne_zero {s : State} (h : s.pageLoaded = true) : s.page ≠ 0 := by
  intro h0
  simp [State.pageLoaded, h0] at h

/-- Past SEG.PAGE, the page of the position is held. -/
theorem WireInv.pageHeld {s : State} (hw : WireInv s) (hb : s.busy = true) (hph : s.phase ≠ .segPage) (hp : s.page ≠ 0) :
    s.PageHeld := hw.1 hb (by simpa [State.pageLoaded, hph] using hp)

/-- A step from a phase past SEG.PAGE that leaves the page's source alone leaves the page held. -/
theorem WireInv.pageHeld_of_same {s t : State} (hw : WireInv s) (hb : s.busy = true) (hph : s.phase ≠ .segPage)
    (hs : SamePageSource s t) (hl : t.pageLoaded = true) : t.PageHeld := by
  have hp : t.page ≠ 0 := pageLoaded_page_ne_zero hl
  obtain ⟨hbuf, hcrc, himg, hplane, hpage⟩ := hs
  rw [hpage] at hp
  rw [State.PageHeld, hbuf, hcrc, himg, hplane, hpage]
  exact hw.pageHeld hb hph hp

/-- At a bare phase WireInv speaks of the page registers only. -/
theorem wireInv_of_bare {t : State} (hpage : t.pageLoaded = true → t.PageHeld) (hbare : t.phase.bare t.body = true) :
    WireInv t := by
  refine ⟨fun _ => hpage, fun _ hbody p hp => ?_, fun _ hp => ?_⟩
  · simp [hp, hbody, Phase.bare] at hbare
  · simp [hp, Phase.bare] at hbare

/-- Outside a session WireInv says nothing. -/
theorem wireInv_of_not_busy {t : State} (h : t.busy = false) : WireInv t := by simp [WireInv, h]

theorem enterPlane_wireInv (s : State) (q : Plane) : WireInv (s.enterPlane q) :=
  wireInv_of_bare (by simp [State.pageLoaded]) rfl

theorem enterPage_wireInv (s : State) (p : Page) : WireInv (s.enterPage p) :=
  wireInv_of_bare (by simp [State.pageLoaded]) rfl

theorem enterEnd_wireInv (s : State) : WireInv s.enterEnd :=
  wireInv_of_bare (by simp [State.pageLoaded]) rfl

theorem dueFrame_length_le (s : State) : s.dueFrame.length ≤ 64 := by
  unfold State.dueFrame
  cases s.body <;> simp

/-- The encoder builds the frame the position calls for, from a held page's payload in a page step (R141 to R143). -/
theorem encodeOf_dueFrame {s : State} {p : List Byte} (h : s.body = .page → s.PageHeld ∧ p = s.payload s.sub) :
    encodeOf s.body p s = .next (s.putFrame s.dueFrame) := by
  unfold State.dueFrame
  cases hb : s.body with
  | start => rfl
  | page =>
    obtain ⟨⟨hbuf, hcrc⟩, rfl⟩ := h hb
    simp only [encodeOf, execEncData, dataWrites_eq_dataFrame, State.payload, hbuf, hcrc]
  | finish => rfl

/-! ### The sequencer's place, from Inv -/

/-- At a phase a session runs, the body is the state's, and the phase is one of that body's (R216, R222). -/
theorem ControlInv.of_phase {s : State} (hc : ControlInv s) (h : s.phase ≠ .idle) :
    s.busy = true ∧ stepOf s.fsm = some s.body ∧ phaseFits s.body s.phase = true := by
  obtain ⟨hidle, hrun, -, -⟩ := hc
  cases hb : s.busy with
  | false => exact absurd (hidle hb).1 h
  | true =>
    obtain ⟨-, -, hstep, -, hfits⟩ := hrun hb
    exact ⟨rfl, hstep, hfits⟩

theorem fsm_of_stepOf_start {f : Fsm} (h : stepOf f = some .start) : f = .starting := by cases f <;> simp_all [stepOf]

theorem fsm_of_stepOf_page {f : Fsm} (h : stepOf f = some .page) : f = .sendingPage := by cases f <;> simp_all [stepOf]

/-- A page step has a page (R41). -/
theorem page_ne_zero_of_page_step {s : State} (hi : Inv s) (h : stepOf s.fsm = some .page) : s.page ≠ 0 := by
  obtain ⟨-, ⟨hpage, -⟩, -⟩ := hi
  have := (hpage (fsm_of_stepOf_page h)).1
  intro h0
  simp [h0] at this

/-! ### One step on the wire -/

/-- The place of an event: what the state before and after the step has to do with it (R9, R63, R217). -/
def EventDue (s t : State) : Event → Prop
  | .tx f a => s.busy = true ∧ s.phase = .tx ∧ f = s.dueFrame ∧ s.txAns = a :: t.txAns
  | .rx n a => s.busy = true ∧ s.phase = .rx ∧ n = replyBytes s.endLen s.body ∧ (∀ b, a = .bytes b → b.length ≤ n)
  | .waitUnit => s.fsm = .starting ∧ s.phase = .backoff
  | .terminal .done => t.fsm = .done
  | .terminal (.failed fs q p c) => t.fsm = .failed ∧ fs = t.failStep ∧ q = t.failPlane ∧ p = t.failPage ∧ c = t.failCause

/-- WireInv after the step, which emits nothing or one event in its place. -/
def WireStep (s t : State) : Prop :=
  WireInv t ∧ (t.trace = s.trace ∨ ∃ e, t.trace = s.trace ++ [e] ∧ EventDue s t e)

theorem WireStep.silent {s t : State} (hw : WireInv t) (h : t.trace = s.trace) : WireStep s t := ⟨hw, .inl h⟩

theorem WireStep.event {s t : State} {e : Event} (hw : WireInv t) (h : t.trace = s.trace ++ [e]) (he : EventDue s t e) :
    WireStep s t := ⟨hw, .inr ⟨e, h, he⟩⟩

/-- An answer to `Rx(n)` delivers at most `n` bytes (R13). -/
theorem upTo_length_le {n : Nat} {a : RxAnswer} {b : List Byte} (h : a.upTo n = .bytes b) : b.length ≤ n := by
  cases a with
  | bytes b' => cases h; exact List.length_take_le n b'
  | err => cases h

/-- One phase of the sequencer, at each of its phases. -/
theorem advance_wireStep {s t : State} (hi : Inv s) (hw : WireInv s) (h : advance s = .next t) : WireStep s t := by
  by_cases hidle : s.phase = .idle
  · rw [advance_idle hidle] at h
    cases h
    exact .silent hw rfl
  obtain ⟨hb, hstep, hfits⟩ := hi.1.of_phase hidle
  have ⟨_, hpayload, hframe⟩ := hw
  have keep {u : State} (hph : s.phase ≠ .segPage) (hs : SamePageSource s u) (hbare : u.phase.bare u.body = true) : WireInv u :=
    wireInv_of_bare (hw.pageHeld_of_same hb hph hs) hbare
  cases hph : s.phase with
  | idle => exact absurd hph hidle
  | segPage =>
    cases hp : pageOk s.page with
    | true =>
      rw [advance_segPage hph hp] at h
      cases h
      exact .silent (wireInv_of_bare (fun _ => loadPage_pageHeld s) rfl) rfl
    | false => rw [advance_segPage_fault hph hp] at h; cases h
  | segSub =>
    cases hk : subOk s.sub with
    | true =>
      rw [advance_segSub hph hk] at h
      cases h
      refine .silent ⟨fun _ => hw.pageHeld_of_same hb (by simp [hph]) ⟨rfl, rfl, rfl, rfl, rfl⟩, fun _ _ p hp => ?_, ?_⟩ rfl
      · cases hp; rfl
      · rintro - ⟨⟩
    | false => rw [advance_segSub_fault hph hk] at h; cases h
  | enc p =>
    have henc : encodeOf s.body p s = .next (s.putFrame s.dueFrame) := encodeOf_dueFrame fun hbody =>
      ⟨hw.pageHeld hb (by simp [hph]) (page_ne_zero_of_page_step hi (hbody ▸ hstep)), hpayload hb hbody p hph⟩
    simp only [advance, hph, henc, onNext_next] at h
    cases h
    refine .silent ⟨fun _ => hw.pageHeld_of_same hb (by simp [hph]) ⟨rfl, rfl, rfl, rfl, rfl⟩, ?_, fun _ _ => ?_⟩ rfl
    · rintro - - p ⟨⟩
    · exact s.putFrame_txFrame (dueFrame_length_le s)
  | tx =>
    obtain rfl | ⟨a, rest, k, p, hans, hp, rfl⟩ := advance_tx_cases hph h
    · exact .silent hw rfl
    · exact .event (keep (by simp [hph]) ⟨rfl, rfl, rfl, rfl, rfl⟩ hp) rfl ⟨hb, hph, hframe hb hph, hans⟩
  | rx =>
    obtain rfl | ⟨a, rest, p, hans, hp, ht⟩ := advance_rx_cases hph h
    · exact .silent hw rfl
    · rw [ht]
      exact .event (keep (by simp [hph]) ⟨rfl, rfl, rfl, rfl, rfl⟩ hp) rfl ⟨hb, hph, rfl, fun _ => upTo_length_le⟩
  | dec =>
    obtain ⟨c, st, p, sl, r, hd⟩ := advance_dec hph
    rw [hd] at h
    cases h
    exact .silent (keep (by simp [hph]) ⟨rfl, rfl, rfl, rfl, rfl⟩ (afterDecode_bare _ _ _ _)) rfl
  | cls st =>
    obtain ⟨c, hc⟩ := advance_cls hph
    rw [hc] at h
    cases h
    exact .silent (keep (by simp [hph]) ⟨rfl, rfl, rfl, rfl, rfl⟩ (afterClass_bare _ _ _)) rfl
  | backoff =>
    have hbody : s.body = .start := by simpa [hph, phaseFits] using hfits
    obtain rfl | ⟨n, -, rfl⟩ := advance_backoff_cases hph h
    · exact .silent hw rfl
    · exact .event (keep (by simp [hph]) ⟨rfl, rfl, rfl, rfl, rfl⟩ rfl) rfl ⟨fsm_of_stepOf_start (hbody ▸ hstep), hph⟩
  | judge r =>
    rw [advance_judge hph] at h
    cases h
    obtain hj | ⟨v, hj⟩ | hj := s.judge_cases r <;> rw [hj]
    · exact .silent (keep (by simp [hph]) ⟨rfl, rfl, rfl, rfl, rfl⟩ rfl) rfl
    · exact .silent (keep (by simp [hph]) ⟨rfl, rfl, rfl, rfl, rfl⟩ rfl) rfl
    · exact .silent (keep (by simp [hph]) ⟨rfl, rfl, rfl, rfl, rfl⟩ (firstPhase_bare _)) rfl
  | ret r =>
    rw [advance_ret hph] at h
    cases h
    obtain hf | ⟨p, hf⟩ | ⟨q, hf⟩ | hf | hf | ⟨fs, q, p, c, hf⟩ := s.finishStep_cases r <;> rw [hf]
    · exact .silent (keep (by simp [hph]) ⟨rfl, rfl, rfl, rfl, rfl⟩ rfl) rfl
    · exact .silent (enterPage_wireInv s p) rfl
    · exact .silent (enterPlane_wireInv s q) rfl
    · exact .silent (enterEnd_wireInv s) rfl
    · exact .event (wireInv_of_not_busy rfl) rfl rfl
    · exact .event (wireInv_of_not_busy rfl) rfl ⟨rfl, rfl, rfl, rfl, rfl⟩

theorem busy_of_not_running {s : State} (h : s.running = false) : s.busy = false := (Bool.or_eq_false_iff.mp h).1

/-- The host's SEND puts nothing on the wire. -/
theorem exec_send_wireStep {o : Byte} {s t : State} (hw : WireInv s) (h : exec (.send o) s = .next t) : WireStep s t := by
  obtain ⟨-, rfl⟩ | ⟨-, rfl⟩ := exec_send_cases h
  · exact .silent hw rfl
  · exact .silent (enterPlane_wireInv _ 0) rfl

/-- A command or frame on the test bench, outside a session, puts nothing on the wire. -/
theorem exec_wire_wireStep {i : Instr} {s t : State} (hi : i.onWire = true) (hb : s.busy = false) (h : exec i s = .next t) :
    WireStep s t := by
  obtain ⟨o, rfl, -⟩ | ⟨f, -, rfl⟩ | ⟨b, r, rfl⟩ | ⟨b, r, rfl⟩ | ⟨b, r, rfl⟩ := exec_wire_cases hi h
  · exact exec_send_wireStep (wireInv_of_not_busy hb) h
  all_goals exact .silent (wireInv_of_not_busy (by simpa [State.busy] using hb)) (by simp)

/-- Settles O57: a reset, a bench word and a SEND emit nothing; a phase of the sequencer is followed phase by phase. -/
theorem wireCarriesTheDueFrames : Obligations.WireCarriesTheDueFrames := by
  unfold Obligations.WireCarriesTheDueFrames
  intro s t hi hw h
  change WireStep s t
  obtain ⟨-, rfl⟩ | ⟨b, i, -, hrun, -, -, hon, he⟩ | ⟨o, -, -, -, he⟩ | ⟨-, -, -, ha⟩ := step_cases h
  · exact .silent (wireInv_of_not_busy rfl) rfl
  · exact exec_wire_wireStep (s := { s with bench := none }) hon (busy_of_not_running hrun) he
  · exact exec_send_wireStep (s := s.nextInput) hw he
  · exact advance_wireStep (s := s.nextInput) hi hw ha

end Sys2Proof.Machine
end

section
/-! PROOFS. The sequencer's invariant (R41): what one phase leaves of the session, what Inv says inside a session, the ways into a
step and out of the session, the place inside an attempt; then every phase and every step keeps it. -/

namespace Sys2Proof.Machine

/-! ### What a phase leaves alone -/

/-- The session but for the place inside the attempt is unchanged: position, report, last cause, and what runs. -/
def SameSession (s t : State) : Prop :=
  SamePosition s t ∧ SameReport s t ∧ t.lastCause = s.lastCause ∧ t.body = s.body ∧ t.scope = s.scope

theorem SameSession.refl (s : State) : SameSession s s := ⟨⟨rfl, rfl, rfl, rfl, rfl⟩, ⟨rfl, rfl, rfl, rfl⟩, rfl, rfl, rfl⟩

theorem SameReply.refl (s : State) : SameReply s s := ⟨rfl, rfl, rfl, rfl⟩

/-- What one phase does to the session's registers: RETRY's test and RUN's continuation move them, the decoder writes the last-reply
registers, every other phase leaves both alone. -/
theorem advance_frame {s t : State} (h : advance s = .next t) :
    (∃ r, s.phase = .judge r ∧ t = s.judge r) ∨ (∃ r, s.phase = .ret r ∧ t = s.finishStep r) ∨
    (s.phase = .dec ∧ SameSession s t) ∨ (SameSession s t ∧ SameReply s t) := by
  cases hph : s.phase with
  | idle => rw [advance_idle hph] at h; cases h; exact .inr (.inr (.inr ⟨.refl s, .refl s⟩))
  | segPage =>
    cases hp : pageOk s.page with
    | true => rw [advance_segPage hph hp] at h; cases h; exact .inr (.inr (.inr ⟨.refl s, .refl s⟩))
    | false => rw [advance_segPage_fault hph hp] at h; cases h
  | segSub =>
    cases hk : subOk s.sub with
    | true => rw [advance_segSub hph hk] at h; cases h; exact .inr (.inr (.inr ⟨.refl s, .refl s⟩))
    | false => rw [advance_segSub_fault hph hk] at h; cases h
  | enc p =>
    obtain ⟨f, hf, -⟩ := encodeOf_next s.body p s
    simp only [advance, hph, hf, onNext_next] at h
    cases h
    exact .inr (.inr (.inr ⟨.refl s, .refl s⟩))
  | tx =>
    obtain rfl | ⟨a, rest, k, p, -, -, rfl⟩ := advance_tx_cases hph h
    · exact .inr (.inr (.inr ⟨.refl _, .refl _⟩))
    · exact .inr (.inr (.inr ⟨.refl s, .refl s⟩))
  | rx =>
    obtain rfl | ⟨a, rest, p, -, -, ht⟩ := advance_rx_cases hph h
    · exact .inr (.inr (.inr ⟨.refl _, .refl _⟩))
    · rw [ht]; exact .inr (.inr (.inr ⟨.refl s, .refl s⟩))
  | dec =>
    obtain ⟨c, st, p, sl, r, hd⟩ := advance_dec hph
    rw [hd] at h
    cases h
    exact .inr (.inr (.inl ⟨rfl, .refl s⟩))
  | cls st => obtain ⟨c, hc⟩ := advance_cls hph; rw [hc] at h; cases h; exact .inr (.inr (.inr ⟨.refl s, .refl s⟩))
  | backoff =>
    obtain rfl | ⟨n, -, rfl⟩ := advance_backoff_cases hph h
    · exact .inr (.inr (.inr ⟨.refl _, .refl _⟩))
    · exact .inr (.inr (.inr ⟨.refl s, .refl s⟩))
  | judge r => rw [advance_judge hph] at h; cases h; exact .inl ⟨r, rfl, rfl⟩
  | ret r => rw [advance_ret hph] at h; cases h; exact .inr (.inl ⟨r, rfl, rfl⟩)

/-- Only SEG.PAGE writes `page_len`. -/
theorem advance_pageLen {s t : State} (hph : s.phase ≠ .segPage) (h : advance s = .next t) : t.pageLen = s.pageLen := by
  obtain ⟨-, hst⟩ | ⟨-, hst⟩ | ⟨hseg, -⟩ | hst := advance_stores h
  · exact congrArg Stores.pageLen hst
  · exact congrArg Stores.pageLen hst
  · exact absurd hseg hph
  · exact congrArg Stores.pageLen hst

/-! ### What Inv says while a session runs -/

/-- A sub-frame is being built or sent at this phase of this body (R25). -/
def Phase.inSub (b : Body) : Phase → Bool
  | .segSub | .enc _ | .tx => b == .page
  | .idle | .segPage | .rx | .dec | .cls _ | .backoff | .judge _ | .ret _ => false

theorem inSubFrame_of_busy {s : State} (hb : s.busy = true) : s.inSubFrame = s.phase.inSub s.body := by
  simp only [State.inSubFrame, hb, Bool.true_and]
  cases s.phase <;> rfl

theorem inSubFrame_of_idle {s : State} (h : s.phase = .idle) : s.inSubFrame = false := by simp [State.inSubFrame, h]

/-- The place inside an attempt: the phase is one of the body's, and `sub` is a sub-frame's number exactly inside one. -/
structure PlaceFits (b : Body) (p : Phase) (k : Sub) : Prop where
  runs : p ≠ .idle
  fits : phaseFits b p = true
  sub : if p.inSub b = true then subOk k = true else k = 0

/-- A pending verdict has its cause, and the verdict of a step is noted in `last_cause` (R34, R212). -/
def VerdictNoted (s : State) : Prop :=
  match s.phase with
  | .judge (.retry c) => c ≠ .none
  | .ret .ok => s.lastCause = .none
  | .ret (.failed c) => c ≠ .none ∧ s.lastCause = c ∧ s.attempt = 3
  | .idle | .segPage | .segSub | .enc _ | .tx | .rx | .dec | .cls _ | .backoff | .judge .success => True

/-- `page_len` is the length of the page the position names (R31, R52). -/
def State.PageLenFits (s : State) : Prop :=
  (s.page = 61 → s.pageLen = 120) ∧ (1 ≤ s.page.toNat ∧ s.page.toNat ≤ 60 → s.pageLen = 248)

/-- The failure report is empty (R28). -/
def State.NoReport (s : State) : Prop :=
  s.failStep = .none ∧ s.failPlane = 0 ∧ s.failPage = 0 ∧ s.failCause = .none

/-- What Inv says of a state in which a session runs. -/
structure SessionInv (s : State) : Prop where
  step : stepOf s.fsm = some s.body
  scope : s.scope = .run
  attempt : s.attempt ≠ 0
  place : PlaceFits s.body s.phase s.sub
  page : s.fsm = .sendingPage → 1 ≤ s.page.toNat ∧ s.page.toNat ≤ 61
  noPage : s.fsm ≠ .sendingPage → s.page = 0
  plane : s.fsm = .ending → s.plane = 1
  pageLen : s.pageLoaded = true → s.PageLenFits
  noReport : s.NoReport
  verdict : VerdictNoted s

/-- A phase of an attempt RETRY has not yet tested; a verdict among them has its cause. -/
def Phase.within : Phase → Prop
  | .judge (.retry c) => c ≠ .none
  | .segPage | .segSub | .enc _ | .tx | .rx | .dec | .cls _ | .backoff | .judge .success => True
  | .idle | .ret _ => False

theorem VerdictNoted.of_within {s : State} (h : s.phase.within) : VerdictNoted s := by
  unfold VerdictNoted
  split <;> simp_all [Phase.within]

theorem busy_of_stepOf {s : State} {b : Body} (h : stepOf s.fsm = some b) : s.busy = true := by
  unfold State.busy
  cases hf : s.fsm <;> simp_all [stepOf]

/-- At most one flag is 1 (R32). -/
theorem flags_exclusive (s : State) : s.busy.toNat + s.isDone.toNat + s.isFailed.toNat ≤ 1 := by
  unfold State.busy State.isDone State.isFailed
  cases s.fsm <;> decide

theorem verdictNoted_iff (s : State) : VerdictNoted s ↔
    (∀ c, s.phase = .judge (.retry c) → c ≠ .none) ∧ (s.phase = .ret .ok → s.lastCause = .none) ∧
    (∀ c, s.phase = .ret (.failed c) → c ≠ .none ∧ s.lastCause = c ∧ s.attempt = 3) := by
  unfold VerdictNoted
  split <;> simp_all

theorem fsm_ne_failed_of_busy {s : State} (hb : s.busy = true) : s.fsm ≠ .failed := by
  intro h
  simp [State.busy, h] at hb

theorem Inv.session {s : State} (hi : Inv s) (hb : s.busy = true) : SessionInv s := by
  obtain ⟨⟨-, hrun, hsub, hsub0⟩, ⟨hpage, hpage0, -, -, hfailed, hplane, hlen⟩, ⟨hj, hok, hf, -, hrep, -⟩⟩ := hi
  obtain ⟨hph, hscope, hstep, hatt, hfits⟩ := hrun hb
  have hnf : s.fsm ≠ .failed := fsm_ne_failed_of_busy hb
  have hfs : s.failStep = .none := by simpa [hnf] using hfailed
  rw [inSubFrame_of_busy hb] at hsub hsub0
  exact {
    step := hstep, scope := hscope, attempt := hatt
    place := ⟨hph, hfits, by split <;> simp_all⟩
    page := hpage
    noPage := fun h => hpage0 (by unfold State.busy at hb; cases hf : s.fsm <;> simp_all)
    plane := fun h => hplane (.inl h)
    pageLen := hlen
    noReport := ⟨hfs, hrep hnf⟩
    verdict := (verdictNoted_iff s).mpr ⟨hj, hok, hf⟩ }

theorem SessionInv.inv {s : State} (h : SessionInv s) : Inv s := by
  have hb : s.busy = true := busy_of_stepOf h.step
  have hnf : s.fsm ≠ .failed := fsm_ne_failed_of_busy hb
  have hnd : s.fsm ≠ .done := by intro hd; simp [State.busy, hd] at hb
  obtain ⟨hfs, hrep⟩ := h.noReport
  obtain ⟨hj, hok, hf⟩ := (verdictNoted_iff s).mp h.verdict
  have hsub := h.place.sub
  refine ⟨⟨by simp [hb], fun _ => ⟨h.place.runs, h.scope, h.step, h.attempt, h.place.fits⟩, ?_, ?_⟩,
    ⟨h.page, fun hfsm => h.noPage ?_, by omega, flags_exclusive s, by simp [hnf, hfs], ?_, h.pageLen⟩,
    ⟨hj, hok, hf, by simp [hnf], fun _ => hrep, by simp [hfs], by simp [hfs], by simp [hfs]⟩⟩
  · rw [inSubFrame_of_busy hb]; intro hin; rwa [if_pos hin] at hsub
  · rw [inSubFrame_of_busy hb]; intro hin; rwa [if_neg (by simp [hin])] at hsub
  · rintro hs; simp [hs] at hfsm
  · rintro (he | hd)
    · exact h.plane he
    · exact absurd hd hnd

/-! ### Into a step, and out of the session -/

/-- Outside the phases of a sub-frame `sub` is 0 (R25). -/
theorem PlaceFits.sub_eq_zero {b : Body} {p : Phase} {k : Sub} (h : PlaceFits b p k) (hp : p.inSub b = false) : k = 0 := by
  simpa [hp] using h.sub

/-- Past SEG.PAGE, a phase that leaves the page and its length alone leaves the length right. -/
theorem SessionInv.pageLenFits_of_same {s t : State} (h : SessionInv s) (hph : s.phase ≠ .segPage) (hp : t.page = s.page)
    (hl : t.pageLen = s.pageLen) (ht : t.pageLoaded = true) : t.PageLenFits := by
  have h0 : t.page ≠ 0 := pageLoaded_page_ne_zero ht
  rw [hp] at h0
  have hs : s.PageLenFits := h.pageLen (by simpa [State.pageLoaded, hph] using h0)
  rwa [State.PageLenFits, hp, hl]

theorem firstPhase_placeFits (b : Body) : PlaceFits b (firstPhase b) 0 := by
  cases b <;> exact ⟨by simp [firstPhase], rfl, rfl⟩

theorem firstPhase_within (b : Body) : (firstPhase b).within := by cases b <;> trivial

/-- RUN enters a step (R216): the step's body in its first attempt, with no page loaded yet. -/
theorem enterRetry_session {s : State} {b : Body} (hstep : stepOf s.fsm = some b) (hsub : s.sub = 0) (hr : s.NoReport)
    (hpage : s.fsm = .sendingPage → 1 ≤ s.page.toNat ∧ s.page.toNat ≤ 61) (hno : s.fsm ≠ .sendingPage → s.page = 0)
    (hplane : s.fsm = .ending → s.plane = 1) : SessionInv (s.enterRetry b .run) where
  step := hstep
  scope := rfl
  attempt := by simp
  place := by rw [State.enterRetry_sub, hsub]; exact firstPhase_placeFits b
  page := hpage
  noPage := hno
  plane := hplane
  pageLen := by
    intro hl
    by_cases hf : s.fsm = .sendingPage
    · rw [hf] at hstep
      cases hstep
      simp [State.pageLoaded, firstPhase] at hl
    · simp [State.pageLoaded, hno hf] at hl
  noReport := hr
  verdict := .of_within (firstPhase_within b)

theorem enterPlane_session {s : State} (hsub : s.sub = 0) (hr : s.NoReport) (q : Plane) : SessionInv (s.enterPlane q) :=
  enterRetry_session (s := { s with plane := q, page := 0, fsm := .starting }) rfl hsub hr (by simp) (by simp) (by simp)

theorem enterPage_session {s : State} (hsub : s.sub = 0) (hr : s.NoReport) {p : Page} (hp : 1 ≤ p.toNat ∧ p.toNat ≤ 61) :
    SessionInv (s.enterPage p) :=
  enterRetry_session (s := { s with page := p, fsm := .sendingPage }) rfl hsub hr (fun _ => hp) (by simp) (by simp)

theorem enterEnd_session {s : State} (hsub : s.sub = 0) (hr : s.NoReport) (hq : s.plane = 1) : SessionInv s.enterEnd :=
  enterRetry_session (s := { s with page := 0, fsm := .ending }) rfl hsub hr (by simp) (by simp) (fun _ => hq)

/-- Outside a session nothing runs and no sub-frame is in use. -/
theorem controlInv_of_rest {s : State} (hb : s.busy = false) (hph : s.phase = .idle) (hsub : s.sub = 0) : ControlInv s :=
  ⟨fun _ => ⟨hph, hsub⟩, by simp [hb], by simp [State.inSubFrame, hph], fun _ => hsub⟩

/-- DONE (R218). -/
theorem SessionInv.succeed_inv {s : State} (h : SessionInv s) (hf : s.fsm = .ending) (hsub : s.sub = 0) : Inv s.succeed := by
  have hpage : s.page = 0 := h.noPage (by simp [hf])
  obtain ⟨hfs, hrep⟩ := h.noReport
  refine ⟨controlInv_of_rest rfl rfl hsub,
    ⟨by simp, fun _ => hpage, by omega, flags_exclusive _, by simp [hfs], fun _ => h.plane hf, ?_⟩,
    ⟨by simp, by simp, by simp, by simp, fun _ => hrep, by simp [hfs], by simp [hfs], by simp [hfs]⟩⟩
  simp [State.pageLoaded, hpage]

/-- FAILED (R219): after the third attempt, with a report that names the step's place. -/
theorem SessionInv.fail_inv {s : State} {fs : FailStep} {q : Plane} {p : Page} {c : Cause} (h : SessionInv s)
    (hph : s.phase = .ret (.failed c)) (hfs : fs ≠ .none) (hstart : fs = .start → q = s.plane ∧ p = 0 ∧ s.page = 0)
    (hpage : fs = .page → q = s.plane ∧ p = s.page ∧ 1 ≤ s.page.toNat ∧ s.page.toNat ≤ 61)
    (hfinish : fs = .finish → q = 0 ∧ p = 0 ∧ s.plane = 1 ∧ s.page = 0) : Inv (s.fail fs q p c) := by
  have hsub : s.sub = 0 := h.place.sub_eq_zero (by rw [hph]; rfl)
  have hv := h.verdict
  simp only [VerdictNoted, hph] at hv
  obtain ⟨hc, hlast, hatt⟩ := hv
  exact ⟨controlInv_of_rest rfl rfl hsub,
    ⟨by simp, by simp, by omega, flags_exclusive _, by simp [hfs], by simp,
      h.pageLenFits_of_same (t := s.fail fs q p c) (by simp [hph]) rfl rfl⟩,
    ⟨by simp, by simp, by simp, fun _ => ⟨hlast.symm, hc, hatt⟩, by simp, hstart, hpage, hfinish⟩⟩

theorem fsm_of_stepOf_finish {f : Fsm} (h : stepOf f = some .finish) : f = .ending := by cases f <;> simp_all [stepOf]

/-- RUN after a step that succeeded (R216). -/
theorem SessionInv.runNext_inv {s : State} (h : SessionInv s) (hsub : s.sub = 0) : Inv s.runNext := by
  have hstep := h.step
  unfold State.runNext
  cases hb : s.body with
  | start => exact (enterPage_session hsub h.noReport (by decide)).inv
  | page =>
    rw [hb] at hstep
    have hpage := h.page (fsm_of_stepOf_page hstep)
    dsimp only
    split
    next hlt =>
      change s.page.toNat < 61 at hlt
      exact (enterPage_session hsub h.noReport (by bv_omega)).inv
    next =>
      split
      next => exact (enterPlane_session hsub h.noReport 1).inv
      next hq => exact (enterEnd_session hsub h.noReport (by bv_omega)).inv
  | finish => exact h.succeed_inv (fsm_of_stepOf_finish (hb ▸ hstep)) hsub

/-- RUN after a step whose attempts are used up (R216, R219). -/
theorem SessionInv.runFail_inv {s : State} {c : Cause} (h : SessionInv s) (hph : s.phase = .ret (.failed c)) :
    Inv (s.runFail c) := by
  have hstep := h.step
  unfold State.runFail
  cases hb : s.body with
  | start =>
    rw [hb] at hstep
    exact h.fail_inv hph (by simp) (fun _ => ⟨rfl, rfl, h.noPage (by simp [fsm_of_stepOf_start hstep])⟩) (by simp) (by simp)
  | page =>
    rw [hb] at hstep
    exact h.fail_inv hph (by simp) (by simp) (fun _ => ⟨rfl, rfl, h.page (fsm_of_stepOf_page hstep)⟩) (by simp)
  | finish =>
    rw [hb] at hstep
    have hf : s.fsm = .ending := fsm_of_stepOf_finish hstep
    exact h.fail_inv hph (by simp) (by simp) (by simp) (fun _ => ⟨rfl, rfl, h.plane hf, h.noPage (by simp [hf])⟩)

/-- RUN's continuation (R216). -/
theorem SessionInv.finishStep_inv {s : State} {r : StepResult} (h : SessionInv s) (hph : s.phase = .ret r) :
    Inv (s.finishStep r) := by
  simp only [State.finishStep, h.scope]
  cases r with
  | ok => exact h.runNext_inv (h.place.sub_eq_zero (by rw [hph]; rfl))
  | failed c => exact h.runFail_inv hph

theorem State.judge_success {s : State} (h : s.scope ≠ .body) :
    s.judge .success = State.atPhase { s with lastCause := .none } (.ret .ok) := by
  unfold State.judge
  split
  · contradiction
  all_goals rfl

theorem State.judge_last {s : State} (h : s.scope ≠ .body) (hatt : s.attempt = 3) (c : Cause) :
    s.judge (.retry c) = State.atPhase { s with lastCause := c } (.ret (.failed c)) := by
  unfold State.judge
  split
  · contradiction
  all_goals exact if_pos hatt

theorem State.judge_again {s : State} (h : s.scope ≠ .body) (hatt : s.attempt ≠ 3) (c : Cause) :
    s.judge (.retry c) = State.beginAttempt { s with lastCause := c } := by
  unfold State.judge
  split
  · contradiction
  all_goals exact if_neg hatt

/-- RETRY's test (R212): the verdict is noted, and the step ends or one more attempt begins. -/
theorem SessionInv.judge_session {s : State} {r : AttemptResult} (h : SessionInv s) (hph : s.phase = .judge r) :
    SessionInv (s.judge r) := by
  have hsub : s.sub = 0 := h.place.sub_eq_zero (by rw [hph]; rfl)
  have hret (v : StepResult) : PlaceFits s.body (.ret v) s.sub := ⟨by simp, rfl, hsub⟩
  have hv := h.verdict
  have hscope : s.scope ≠ .body := by simp [h.scope]
  have hlen {t : State} := h.pageLenFits_of_same (t := t) (by simp [hph])
  cases r with
  | success =>
    rw [State.judge_success hscope]
    exact { h with place := hret .ok, pageLen := hlen rfl rfl, verdict := rfl }
  | retry c =>
    simp only [VerdictNoted, hph] at hv
    by_cases hatt : s.attempt = 3
    · rw [State.judge_last hscope hatt]
      exact { h with place := hret (.failed c), pageLen := hlen rfl rfl, verdict := ⟨hv, rfl, hatt⟩ }
    · rw [State.judge_again hscope hatt]
      have hnext : s.attempt + 1 ≠ 0 := by bv_omega
      have hp : PlaceFits s.body (firstPhase s.body) s.sub := by rw [hsub]; exact firstPhase_placeFits s.body
      exact { h with attempt := hnext, place := hp, pageLen := hlen rfl rfl, verdict := .of_within (firstPhase_within s.body) }

/-! ### Inside an attempt -/

theorem afterDecode_placeFits (n : Config.EndLen) (b : Body) (r : List Byte) :
    PlaceFits b (afterDecode n b r) 0 ∧ (afterDecode n b r).within := by
  have hcause (e : DecodeErr) : e.cause ≠ .none := by cases e <;> simp [DecodeErr.cause]
  cases b with
  | start =>
    simp only [afterDecode]
    cases startReplyOf r with
    | ok f => exact ⟨⟨by simp, rfl, rfl⟩, trivial⟩
    | err e => exact ⟨⟨by simp, rfl, rfl⟩, hcause e⟩
  | page =>
    simp only [afterDecode]
    cases dataReplyOf r with
    | ok f => exact ⟨⟨by simp, rfl, rfl⟩, trivial⟩
    | err e => exact ⟨⟨by simp, rfl, rfl⟩, hcause e⟩
  | finish =>
    simp only [afterDecode]
    cases endReplyOf n r with
    | ok f => exact ⟨⟨by simp, rfl, rfl⟩, trivial⟩
    | err e => exact ⟨⟨by simp, rfl, rfl⟩, hcause e⟩

theorem judge_placeFits (b : Body) (r : AttemptResult) : PlaceFits b (.judge r) 0 := ⟨by simp, rfl, rfl⟩

theorem afterClass_placeFits (b : Body) (st : Byte) : PlaceFits b (afterClass b st) 0 ∧ (afterClass b st).within := by
  cases b with
  | start =>
    simp only [afterClass]
    split
    · exact ⟨⟨by simp, rfl, rfl⟩, trivial⟩
    · exact ⟨judge_placeFits _ _, by cases startClassOf st <;> simp [StartClass.attempt, Phase.within]⟩
  | page | finish =>
    exact ⟨judge_placeFits _ _, by simp only [afterClass]; cases dataClassOf st <;> simp [DataClass.attempt, Phase.within]⟩

/-- After an answered `Tx`: the next sub-frame of the page, or the sub-frames are left. -/
theorem State.afterTx_placeFits {s : State} (a : TxAnswer) (h : PlaceFits s.body .tx s.sub) :
    PlaceFits s.body (s.afterTx a).phase (s.afterTx a).sub ∧ (s.afterTx a).phase.within := by
  have hsub := h.sub
  have hleave : s.leaveSubs.sub = 0 := by
    rw [State.leaveSubs_sub]
    split
    · rfl
    next hb => simpa [Phase.inSub, hb] using hsub
  cases a with
  | err =>
    simp only [State.afterTx, State.atPhase_sub, State.atPhase_phase, hleave]
    exact ⟨judge_placeFits _ _, by simp [Phase.within]⟩
  | ok =>
    simp only [State.afterTx]
    split
    next hk =>
      obtain ⟨hb, hk⟩ := hk
      have hok : subOk (s.sub + 1) = true := by
        simp only [subOk, Bool.and_eq_true, decide_eq_true_eq]
        bv_omega
      exact ⟨⟨by simp, by simp [phaseFits, hb], by simpa [Phase.inSub, hb] using hok⟩, trivial⟩
    next =>
      simp only [State.atPhase_sub, State.atPhase_phase, hleave]
      exact ⟨⟨by simp, rfl, rfl⟩, trivial⟩

theorem State.afterRx_placeFits {s : State} (h : s.sub = 0) (a : RxAnswer) :
    PlaceFits s.body (s.afterRx a).phase (s.afterRx a).sub ∧ (s.afterRx a).phase.within := by
  cases a with
  | err => exact ⟨⟨by simp [State.afterRx], rfl, h⟩, by simp [State.afterRx, Phase.within]⟩
  | bytes b => exact ⟨⟨by simp [State.afterRx], rfl, h⟩, trivial⟩

/-- A phase inside an attempt leads to a phase inside it, with the right sub-frame number. -/
theorem SessionInv.advance_placeFits {s t : State} (hs : SessionInv s) (hw : s.phase.within) (hj : ∀ r, s.phase ≠ .judge r)
    (h : advance s = .next t) : PlaceFits s.body t.phase t.sub ∧ t.phase.within := by
  have hp := hs.place
  have hfits := hp.fits
  have hzero (hin : s.phase.inSub s.body = false) : s.sub = 0 := hp.sub_eq_zero hin
  cases hph : s.phase with
  | idle | ret => simp [Phase.within, hph] at hw
  | judge r => exact absurd hph (hj r)
  | segPage =>
    rw [hph] at hfits
    have hbody : s.body = .page := by simpa [phaseFits] using hfits
    cases hok : pageOk s.page with
    | true =>
      rw [advance_segPage hph hok] at h
      cases h
      exact ⟨⟨by simp, hfits, by simpa [Phase.inSub, hbody] using by decide⟩, trivial⟩
    | false => rw [advance_segPage_fault hph hok] at h; cases h
  | segSub =>
    rw [hph] at hp
    cases hk : subOk s.sub with
    | true =>
      rw [advance_segSub hph hk] at h
      cases h
      exact ⟨⟨by simp, rfl, hp.sub⟩, trivial⟩
    | false => rw [advance_segSub_fault hph hk] at h; cases h
  | enc p =>
    rw [hph] at hp
    obtain ⟨f, hf, -⟩ := encodeOf_next s.body p s
    simp only [advance, hph, hf, onNext_next] at h
    cases h
    exact ⟨⟨by simp, rfl, hp.sub⟩, trivial⟩
  | tx =>
    rw [advance_tx hph] at h
    cases h
    cases hans : s.txAns with
    | nil => rw [State.transmit_nil hans]; exact ⟨hp, hw⟩
    | cons a rest =>
      rw [State.transmit_cons hans]
      exact State.afterTx_placeFits (s := State.emit { s with txAns := rest } (.tx s.txFrame a)) a (hph ▸ hp)
  | rx =>
    rw [advance_rx hph] at h
    cases h
    cases hans : s.rxAns with
    | nil => rw [State.request_nil hans]; exact ⟨hp, hw⟩
    | cons a rest =>
      rw [State.request_cons hans]
      simpa using State.afterRx_placeFits (s := (State.receive { s with rxAns := rest } _).emit _)
        (by simpa using hzero (by rw [hph]; rfl)) (a.upTo (replyBytes s.endLen s.body))
  | dec =>
    obtain ⟨c, st, p, sl, r, hd⟩ := advance_dec hph
    rw [hd] at h
    cases h
    simp only [hzero (by rw [hph]; rfl)]
    exact afterDecode_placeFits _ _ _
  | cls st =>
    obtain ⟨c, hc⟩ := advance_cls hph
    rw [hc] at h
    cases h
    simp only [State.atPhase_sub, State.returns_sub, hzero (by rw [hph]; rfl)]
    exact afterClass_placeFits _ _
  | backoff =>
    obtain rfl | ⟨n, -, rfl⟩ := advance_backoff_cases hph h
    · exact ⟨hp, hw⟩
    · simp only [hzero (by rw [hph]; rfl)]
      exact ⟨judge_placeFits _ _, by simp [Phase.within]⟩

/-- SEG.PAGE loads a page of the right length (R52, R191). -/
theorem loadPage_pageLenFits (s : State) : (s.loadPage s.plane s.page).PageLenFits := by
  constructor
  · intro hp
    simp only [State.loadPage_page] at hp
    simp [hp, pageBytes]
  · rintro ⟨-, hp⟩
    simp only [State.loadPage_page] at hp
    simp [hp, pageBytes]

/-- A phase inside an attempt keeps what Inv says of the session. -/
theorem SessionInv.advance_session {s t : State} (hs : SessionInv s) (hsame : SameSession s t) (hw : s.phase.within)
    (hj : ∀ r, s.phase ≠ .judge r) (h : advance s = .next t) : SessionInv t := by
  obtain ⟨hplace, hwithin⟩ := hs.advance_placeFits hw hj h
  obtain ⟨⟨hfsm, hplane, hpage, hatt, -⟩, ⟨hfs, hfq, hfp, hfc⟩, -, hbody, hscope⟩ := hsame
  exact {
    step := by rw [hfsm, hbody]; exact hs.step
    scope := by rw [hscope]; exact hs.scope
    attempt := by rw [hatt]; exact hs.attempt
    place := by rw [hbody]; exact hplace
    page := by rw [hfsm, hpage]; exact hs.page
    noPage := by rw [hfsm, hpage]; exact hs.noPage
    plane := by rw [hfsm, hplane]; exact hs.plane
    pageLen := by
      by_cases hph : s.phase = .segPage
      · cases hok : pageOk s.page with
        | true => rw [advance_segPage hph hok] at h; cases h; exact fun _ => loadPage_pageLenFits s
        | false => rw [advance_segPage_fault hph hok] at h; cases h
      · exact hs.pageLenFits_of_same hph hpage (advance_pageLen hph h)
    noReport := by rw [State.NoReport, hfs, hfq, hfp, hfc]; exact hs.noReport
    verdict := .of_within hwithin }

/-! ### Every step keeps the invariant -/

/-- Every phase of the sequencer keeps the invariant. -/
theorem advance_inv {s t : State} (hi : Inv s) (h : advance s = .next t) : Inv t := by
  by_cases hidle : s.phase = .idle
  · rw [advance_idle hidle] at h
    cases h
    exact hi
  have hs : SessionInv s := hi.session (hi.1.of_phase hidle).1
  by_cases hj : ∃ r, s.phase = .judge r
  · obtain ⟨r, hj⟩ := hj
    rw [advance_judge hj] at h
    cases h
    exact (hs.judge_session hj).inv
  by_cases hr : ∃ r, s.phase = .ret r
  · obtain ⟨r, hr⟩ := hr
    rw [advance_ret hr] at h
    cases h
    exact hs.finishStep_inv hr
  have hw : s.phase.within := by cases hph : s.phase <;> simp_all [Phase.within]
  have hsame : SameSession s t := by
    obtain ⟨r, hr', -⟩ | ⟨r, hr', -⟩ | ⟨-, hsame⟩ | ⟨hsame, -⟩ := advance_frame h
    · exact absurd ⟨r, hr'⟩ hj
    · exact absurd ⟨r, hr'⟩ hr
    · exact hsame
    · exact hsame
  exact (hs.advance_session hsame hw (not_exists.mp hj) h).inv

theorem inv_reset : Inv State.reset :=
  ⟨controlInv_of_rest rfl rfl rfl, ⟨nofun, fun _ => rfl, by decide, flags_exclusive _, by decide, by decide, nofun⟩,
    ⟨nofun, nofun, nofun, nofun, fun _ => ⟨rfl, rfl, rfl⟩, nofun, nofun, nofun⟩⟩

/-- The host's SEND keeps the invariant (R210, R223). -/
theorem exec_send_inv {o : Byte} {s t : State} (hi : Inv s) (h : exec (.send o) s = .next t) : Inv t := by
  obtain ⟨-, rfl⟩ | ⟨-, rfl⟩ := exec_send_cases h
  · exact hi
  · exact (enterPlane_session (by simp) ⟨rfl, rfl, rfl, rfl⟩ 0).inv

/-- A command or frame on the test bench keeps the invariant: a frame moves none of its registers (log 11). -/
theorem exec_wire_inv {i : Instr} {s t : State} (hi : Inv s) (hon : i.onWire = true) (h : exec i s = .next t) : Inv t := by
  obtain ⟨o, rfl, -⟩ | ⟨f, -, rfl⟩ | ⟨b, r, rfl⟩ | ⟨b, r, rfl⟩ | ⟨b, r, rfl⟩ := exec_wire_cases hon h
  · exact exec_send_inv hi h
  · exact hi
  · cases startReplyOf b <;> exact hi
  · cases dataReplyOf b <;> exact hi
  · cases endReplyOf s.endLen b <;> exact hi

theorem step_inv {s t : State} (hi : Inv s) (h : step s = .next t) : Inv t := by
  obtain ⟨-, rfl⟩ | ⟨b, i, -, -, -, -, hon, he⟩ | ⟨o, -, -, -, he⟩ | ⟨-, -, -, ha⟩ := step_cases h
  · exact inv_reset
  · exact exec_wire_inv (s := { s with bench := none }) hi hon he
  · exact exec_send_inv (s := s.nextInput) hi he
  · exact advance_inv (s := s.nextInput) hi ha

theorem inv_of_reachable {s : State} (h : Reachable s) : Inv s := by
  induction h with
  | boot hb => obtain ⟨_, _, _, _, _, _, _, rfl⟩ := hb; exact inv_reset
  | step _ hst ih => exact step_inv ih hst

/-- Settles O54: a reset gives the reset state's registers, a bench word and a SEND keep the invariant, and so does every phase. -/
theorem stepKeepsTheInvariant : Obligations.StepKeepsTheInvariant := fun _ _ => step_inv

/-- Settles O56: R41 is part of the invariant, which holds in every reachable state. -/
theorem reachablePositions : Obligations.ReachablePositions := by
  unfold Obligations.ReachablePositions
  intro s h
  obtain ⟨-, hpos, -⟩ := inv_of_reachable h
  exact hpos

/-- Settles O55: the reset state is idle, with no page and no report, and its image store is empty. -/
theorem resetMeetsTheInvariants : Obligations.ResetMeetsTheInvariants := ⟨inv_reset, wireInv_of_not_busy rfl, rfl⟩

end Sys2Proof.Machine
end

section
/-! PROOFS. The registers of the session: who moves the position, `slot`, the last-reply registers, `last_cause` and `rx_buf`
(R24, R27, R29, R33, R34), what a step outside a session moves (R22), and the checksum register before CRC.INIT (R30). -/

namespace Sys2Proof.Machine

/-! ### The position -/

/-- RUN after a step that succeeded: the next place of R216's order, in its first attempt, or the session is over. -/
theorem State.runNext_nextPlace {s : State} (hstep : stepOf s.fsm = some s.body) (hb : s.runNext.busy = true) :
    nextPlace s.fsm s.plane s.page = some (s.runNext.fsm, s.runNext.plane, s.runNext.page) ∧ s.runNext.attempt = 1 ∧
    s.runNext.slot = s.slot ∧ s.runNext.trace = s.trace := by
  unfold State.runNext at hb ⊢
  cases hbody : s.body with
  | start =>
    rw [hbody] at hstep
    rw [fsm_of_stepOf_start hstep]
    exact ⟨rfl, rfl, rfl, rfl⟩
  | page =>
    rw [hbody] at hstep
    rw [fsm_of_stepOf_page hstep]
    simp only [nextPlace]
    split
    · exact ⟨rfl, rfl, rfl, rfl⟩
    · split <;> exact ⟨rfl, rfl, rfl, rfl⟩
  | finish =>
    rw [hbody] at hb
    cases hb

/-- One phase keeps the position, or it is RUN's continuation after a step that succeeded. -/
theorem SessionInv.advance_position {s t : State} (hs : SessionInv s) (h : advance s = .next t) (ht : t.busy = true) :
    (t.fsm = s.fsm ∧ t.plane = s.plane ∧ t.page = s.page) ∨ (s.phase = .ret .ok ∧ t = s.runNext) := by
  obtain ⟨r, -, rfl⟩ | ⟨r, hph, rfl⟩ | ⟨-, ⟨hfsm, hplane, hpage, -⟩, -⟩ | ⟨⟨⟨hfsm, hplane, hpage, -⟩, -⟩, -⟩ := advance_frame h
  · refine .inl ?_
    obtain hj | ⟨v, hj⟩ | hj := s.judge_cases r <;> rw [hj] <;> exact ⟨rfl, rfl, rfl⟩
  · simp only [State.finishStep, hs.scope] at ht ⊢
    cases r with
    | ok => exact .inr ⟨hph, rfl⟩
    | failed c => cases hb : s.body <;> simp [State.runFail, hb, State.busy] at ht
  · exact .inl ⟨hfsm, hplane, hpage⟩
  · exact .inl ⟨hfsm, hplane, hpage⟩

/-- Settles O46: a reset ends the session, a SEND is ignored, no bench word is executed, and a phase keeps the position or is RUN's
continuation. -/
theorem positionAdvancesInOrder : Obligations.PositionAdvancesInOrder := by
  unfold Obligations.PositionAdvancesInOrder
  intro s t hi hb h ht
  obtain ⟨-, rfl⟩ | ⟨b, i, -, hrun, -⟩ | ⟨o, -, -, -, he⟩ | ⟨-, -, -, ha⟩ := step_cases h
  · cases ht
  · rw [State.running_of_busy hb] at hrun
    cases hrun
  · obtain ⟨-, rfl⟩ | ⟨hnb, -⟩ := exec_send_cases he
    · exact .inl ⟨rfl, rfl, rfl⟩
    · cases hb.symm.trans hnb
  · have hs : SessionInv s.nextInput := Inv.session (s := s.nextInput) hi hb
    obtain hsame | ⟨hph, rfl⟩ := hs.advance_position ha ht
    · exact .inl hsame
    · exact .inr ⟨hph, State.runNext_nextPlace hs.step ht⟩

/-! ### Outside a session -/

theorem ite_ne {α : Type} {p : Prop} [Decidable p] {x y z : α} (hx : x ≠ z) (hy : y ≠ z) : (if p then x else y) ≠ z := by
  split
  · exact hx
  · exact hy

/-- Only a word of one byte is a SEND (R98): every other branch of the decoder rejects or answers a frame. -/
theorem length_of_decode_send {c : Ctx} {b : List Byte} {o : Byte} (h : decode c b = .ok (.send o)) : b.length = 1 := by
  by_contra hl
  rw [decode, if_neg hl] at h
  have hrej (r : Reject) : Decoded.reject r ≠ .ok (.send o) := nofun
  have hdrep : decodeDataReply b ≠ .ok (.send o) := ite_ne nofun nofun
  have hsrep : decodeStartReply b ≠ .ok (.send o) := ite_ne nofun (ite_ne nofun nofun)
  have herep (n : Config.EndLen) : decodeEndReply n b ≠ .ok (.send o) := ite_ne nofun (ite_ne nofun nofun)
  have hhost : decodeHost10 c b ≠ .ok (.send o) :=
    ite_ne nofun (ite_ne nofun (ite_ne nofun (ite_ne nofun (ite_ne nofun nofun))))
  have hdata : decodeData b ≠ .ok (.send o) := ite_ne nofun (ite_ne nofun (ite_ne nofun (ite_ne nofun nofun)))
  exact ite_ne hdrep (ite_ne (ite_ne (herep _) (hrej _)) (ite_ne (ite_ne hhost (ite_ne (herep _) hsrep))
    (ite_ne hdata (hrej _)))) h

/-- A frame on the test bench (log 11): what it may move. -/
theorem exec_frame_eq {i : Instr} {s t : State} (hon : i.onWire = true) (hsend : ∀ o, i ≠ .send o) (h : exec i s = .next t) :
    t = { s with
      txBuf := t.txBuf, txLen := t.txLen, lastCmd16 := t.lastCmd16, lastStatus := t.lastStatus
      lastPage := t.lastPage, lastSlot16 := t.lastSlot16, result := t.result } := by
  obtain ⟨o, rfl, -⟩ | ⟨f, -, rfl⟩ | ⟨b, r, rfl⟩ | ⟨b, r, rfl⟩ | ⟨b, r, rfl⟩ := exec_wire_cases hon h
  · exact absurd rfl (hsend o)
  · rfl
  · cases startReplyOf b <;> rfl
  · cases dataReplyOf b <;> rfl
  · cases endReplyOf s.endLen b <;> rfl

/-- Settles O45: outside a session the sequencer stands idle, and a bench word that is no SEND is a frame. -/
theorem idleStatesAreSticky : Obligations.IdleStatesAreSticky := by
  unfold Obligations.IdleStatesAreSticky
  intro s t hi hb h
  obtain ⟨hp, -⟩ | ⟨b, i, -, hrun, hbench, hd, hon, he⟩ | ⟨o, -, hw, hc, -⟩ | ⟨-, hw, -, ha⟩ := step_cases h
  · exact .inl hp
  · refine .inr (.inr (.inr ⟨b, (State.benchWord_of_rest hrun).trans hbench, ?_⟩))
    by_cases hsend : ∃ o, i = .send o
    · obtain ⟨o, rfl⟩ := hsend
      exact .inl (length_of_decode_send hd)
    · exact .inr (exec_frame_eq hon (not_exists.mp hsend) he)
  · exact .inr (.inl ⟨hw, by simp [hc]⟩)
  · obtain ⟨⟨hidle, -⟩, -⟩ := hi
    rw [advance_idle (s := s.nextInput) (hidle hb).1] at ha
    cases ha
    exact .inr (.inr (.inl ⟨hw, rfl⟩))

/-! ### `slot` -/

theorem advance_slot {s t : State} (h : advance s = .next t) : t.slot = s.slot := by
  obtain ⟨r, -, rfl⟩ | ⟨r, -, rfl⟩ | ⟨-, ⟨-, -, -, -, hslot⟩, -⟩ | ⟨⟨⟨-, -, -, -, hslot⟩, -⟩, -⟩ := advance_frame h
  · obtain hj | ⟨v, hj⟩ | hj := s.judge_cases r <;> rw [hj] <;> rfl
  · obtain hf | ⟨p, hf⟩ | ⟨q, hf⟩ | hf | hf | ⟨fs, q, p, c, hf⟩ := s.finishStep_cases r <;> rw [hf] <;> rfl
  · exact hslot
  · exact hslot

theorem drive_slot {n : Nat} {s t : State} (h : drive n s = .next t) : t.slot = s.slot :=
  drive_keeps (P := fun u => u.slot = s.slot) (fun _ _ hu ha => (advance_slot ha).trans hu) rfl h

/-- No operation but SEND and RESET writes `slot` (R27). -/
theorem exec_slot {i : Instr} {s t : State} (hsend : ∀ o, i ≠ .send o) (hreset : i ≠ .reset) (h : exec i s = .next t) :
    t.slot = s.slot := by
  cases i with
  | send o => exact absurd rfl (hsend o)
  | reset => exact absurd rfl hreset
  | start | data | endFrame | crcInit | crcSpan | encStart | encData | encEnd | refSreply | refDreply | refEreply | startReply
  | dataReply | endReply | decSreply | decDreply | decEreply | clsStart | clsData => cases h; simp
  | crcByte | crcFin => cases h; split <;> simp
  | segPage q p =>
    simp only [exec, execSegPage] at h
    split at h <;> cases h
    rfl
  | segSub k =>
    simp only [exec, execSegSub] at h
    split at h <;> cases h
    rfl
  | retry | stepStart | stepPage | stepEnd | run => exact (drive_slot h).trans rfl

theorem slotOf_toNat (o : Byte) : (slotOf o).toNat = o.toNat % 16 := by simp [slotOf]

/-- Settles O48: SEND writes the masked operand if it is accepted, RESET writes 0, every other operation keeps `slot`. -/
theorem slotIsWrittenBySendOnly : Obligations.SlotIsWrittenBySendOnly := by
  unfold Obligations.SlotIsWrittenBySendOnly
  intro i s t h hne
  by_cases hsend : ∃ o, i = .send o
  · obtain ⟨o, rfl⟩ := hsend
    obtain ⟨-, rfl⟩ | ⟨hb, rfl⟩ := exec_send_cases h
    · exact absurd rfl hne
    · exact .inl ⟨o, rfl, hb, slotOf_toNat o⟩
  by_cases hreset : i = .reset
  · subst hreset
    cases h
    exact .inr ⟨rfl, rfl⟩
  exact absurd (exec_slot (not_exists.mp hsend) hreset h) hne

/-! ### The last-reply registers -/

/-- Settles O49: outside the decoder's phase no phase writes them, and a decoder writes them only with the fields of an Ok. -/
theorem lastReplyIsWrittenByOkDecodesOnly : Obligations.LastReplyIsWrittenByOkDecodesOnly := by
  unfold Obligations.LastReplyIsWrittenByOkDecodesOnly
  rintro s t ⟨hin, hw⟩ h
  rw [step_quiet hin hw] at h
  obtain ⟨r, -, rfl⟩ | ⟨r, -, rfl⟩ | ⟨hph, -⟩ | ⟨-, hsame⟩ := advance_frame h
  · obtain hj | ⟨v, hj⟩ | hj := s.judge_cases r <;> rw [hj] <;> exact .inl (.refl s)
  · obtain hf | ⟨p, hf⟩ | ⟨q, hf⟩ | hf | hf | ⟨fs, q, p, c, hf⟩ := s.finishStep_cases r <;> rw [hf] <;> exact .inl (.refl s)
  · cases hb : s.body with
    | start =>
      rw [advance_dec_start hph hb] at h
      cases h
      cases hr : startReplyOf s.rxBytes with
      | err e => exact .inl (.refl s)
      | ok f => exact .inr (.inl ⟨hph, rfl, f, rfl, rfl, rfl, rfl, rfl⟩)
    | page =>
      rw [advance_dec_page hph hb] at h
      cases h
      cases hr : dataReplyOf s.rxBytes with
      | err e => exact .inl (.refl s)
      | ok f => exact .inr (.inr (.inl ⟨hph, rfl, f, rfl, rfl, rfl, rfl, rfl⟩))
    | finish =>
      rw [advance_dec_finish hph hb] at h
      cases h
      cases hr : endReplyOf s.endLen s.rxBytes with
      | err e => exact .inl (.refl s)
      | ok f => exact .inr (.inr (.inr ⟨hph, rfl, f, rfl, rfl, rfl, rfl, rfl⟩))
  · exact .inl hsame

/-! ### `last_cause` -/

/-- RETRY's test notes the verdict (R34, R212); a body alone would not. -/
theorem State.judge_lastCause {s : State} (h : s.scope ≠ .body) (r : AttemptResult) : (s.judge r).lastCause = r.lastCause := by
  cases r with
  | success => rw [State.judge_success h]; rfl
  | retry c =>
    by_cases hatt : s.attempt = 3
    · rw [State.judge_last h hatt]; rfl
    · rw [State.judge_again h hatt]; rfl

/-- Only RETRY's test writes `last_cause`. -/
theorem advance_lastCause {s t : State} (hj : ∀ r, s.phase ≠ .judge r) (h : advance s = .next t) :
    t.lastCause = s.lastCause := by
  obtain ⟨r, hph, -⟩ | ⟨r, -, rfl⟩ | ⟨-, -, -, hc, -⟩ | ⟨⟨-, -, hc, -⟩, -⟩ := advance_frame h
  · exact absurd hph (hj r)
  · obtain hf | ⟨p, hf⟩ | ⟨q, hf⟩ | hf | hf | ⟨fs, q, p, c, hf⟩ := s.finishStep_cases r <;> rw [hf] <;> rfl
  · exact hc
  · exact hc

/-- Settles O50: RETRY's test of the session notes the verdict, no other phase writes `last_cause`, reset and SEND clear it. -/
theorem lastCauseFollowsTheAttempt : Obligations.LastCauseFollowsTheAttempt := by
  unfold Obligations.LastCauseFollowsTheAttempt
  refine ⟨fun s t hi ⟨hin, hw⟩ h => ?_, fun s t h => ?_, fun s t o hb h => ?_⟩
  · rw [step_quiet hin hw] at h
    refine ⟨fun r hph => ?_, fun hj => advance_lastCause hj h⟩
    have hs : SessionInv s := hi.session (hi.1.of_phase (by simp [hph])).1
    rw [advance_judge hph] at h
    cases h
    rw [State.judge_lastCause (by simp [hs.scope])]
    cases r <;> rfl
  · cases h
    rfl
  · obtain ⟨hb', -⟩ | ⟨-, rfl⟩ := exec_send_cases h
    · cases hb.symm.trans hb'
    · rfl

/-! ### `rx_buf` and `rx_len` -/

/-- No reply is longer than `rx_buf` (R33, R80). -/
theorem replyBytes_le (n : Config.EndLen) (b : Body) : replyBytes n b ≤ 10 := by
  cases b with
  | start => exact le_refl 10
  | page => exact (by decide : 6 ≤ 10)
  | finish => cases n <;> decide

theorem State.putReply_rxLen_toNat (s : State) {b : List Byte} (h : b.length ≤ 10) :
    (s.putReply b).rxLen.toNat = b.length := by
  rw [State.putReply_rxLen, List.take_of_length_le h, BitVec.toNat_ofNat]
  exact Nat.mod_eq_of_lt (by omega)

/-- Settles O52: the answer's first bytes, or none after RxErr, are delivered into `rx_buf`, and the attempt goes on with them. -/
theorem receiveFillsRxBuf : Obligations.ReceiveFillsRxBuf := by
  unfold Obligations.ReceiveFillsRxBuf
  intro s a ra hin hph hans
  rw [step_quiet hin (State.benchWord_of_running (State.running_of_phase (by simp [hph]))), advance_rx hph,
    State.request_cons hans]
  refine ⟨_, rfl, ?_⟩
  cases a with
  | err => exact ⟨rfl, nofun, fun _ => ⟨rfl, rfl, rfl⟩⟩
  | bytes b =>
    have hlen : (b.take (replyBytes s.endLen s.body)).length ≤ 10 := by
      have := replyBytes_le s.endLen s.body
      simp only [List.length_take]
      omega
    refine ⟨rfl, ?_, nofun⟩
    rintro _ ⟨⟩
    refine ⟨?_, ?_, rfl, rfl⟩
    · exact (State.putReply_rxLen_toNat { s with rxAns := ra } hlen).trans (by rw [List.length_take, Nat.min_comm])
    · exact (State.putReply_rxBytes { s with rxAns := ra } _).trans (List.take_of_length_le hlen)

/-! ### Reset, and the checksum register before CRC.INIT -/

/-- Settles O31: RESET is `toReset`, field by field. -/
theorem resetGivesTheResetValues : Obligations.ResetGivesTheResetValues := by
  unfold Obligations.ResetGivesTheResetValues
  intro s
  exact ⟨s.toReset, rfl, rfl, rfl, rfl, rfl, rfl, rfl, rfl, rfl, rfl, rfl, rfl, rfl, rfl, rfl, rfl, rfl, rfl, rfl, rfl, rfl, rfl,
    rfl, rfl, rfl⟩

/-- Settles O10: both operations draw a free value while `crcInit` is false. -/
theorem unspecifiedChecksumIsAnyValue : Obligations.UnspecifiedChecksumIsAnyValue := by
  unfold Obligations.UnspecifiedChecksumIsAnyValue
  intro s d h
  exact ⟨⟨Config.freeWord s.free, by simp [exec, execCrcByte, h]⟩, ⟨Config.freeWord s.free, by simp [exec, execCrcFin, h]⟩⟩

end Sys2Proof.Machine
end

section
/-! PROOFS. The image store as memory (R51, R52): a write is read back, the canonical form is unique, no operation and no step
writes it, and the segmenter stops at a page or a sub-frame that does not exist; then what a step runs (R62, R98). -/

namespace Sys2Proof.Machine

/-! ### The store as memory (log 4) -/

theorem Memory.wfFrom_cons_cell {lo a : Nat} {v : Byte} {m : Memory} : Memory.wfFrom lo ((a, v) :: m) = true ↔
    lo ≤ a ∧ a < 2 * Config.planeBytes ∧ v ≠ Memory.unlisted ∧ Memory.wfFrom (a + 1) m = true := by
  simp only [Memory.wfFrom, Bool.and_eq_true, decide_eq_true_eq, bne_iff_ne, and_assoc]

theorem Memory.wfFrom_rest {lo a : Nat} {v : Byte} {m : Memory} (h : Memory.wfFrom lo ((a, v) :: m) = true) :
    Memory.wfFrom (a + 1) m = true := by
  obtain ⟨-, -, -, hrest⟩ := Memory.wfFrom_cons_cell.mp h
  exact hrest

/-- The bound of a form can be raised to its first key. -/
theorem Memory.wfFrom_head {lo a : Nat} {v : Byte} {m : Memory} (h : Memory.wfFrom lo ((a, v) :: m) = true) :
    Memory.wfFrom a ((a, v) :: m) = true := by
  obtain ⟨-, hcell⟩ := Memory.wfFrom_cons_cell.mp h
  exact Memory.wfFrom_cons_cell.mpr ⟨le_refl a, hcell⟩

/-- A cell put in front of a store that does not list its key is read there, and hides nothing else. -/
theorem Memory.read_cons {m : Memory} {k : Nat} (h : Memory.read m k = Memory.unlisted) (v : Byte) (k' : Nat) :
    Memory.read (Memory.cons k v m) k' = if k' = k then v else Memory.read m k' := by
  unfold Memory.cons
  split
  · rename_i hv
    split
    · rename_i hk
      rw [hk, h, hv]
    · rfl
  · simp only [Memory.read_cons_cell, eq_comm]

theorem Memory.read_write {m : Memory} {lo : Nat} (h : Memory.wfFrom lo m = true) (k k' : Nat) (v : Byte) :
    Memory.read (Memory.write m k v) k' = if k' = k then v else Memory.read m k' := by
  induction m generalizing lo with
  | nil => exact Memory.read_cons (Memory.read_nil k) v k'
  | cons c rest ih =>
    obtain ⟨a, w⟩ := c
    have hrest : Memory.wfFrom (a + 1) rest = true := Memory.wfFrom_rest h
    unfold Memory.write
    split
    · rename_i hlt
      have hbelow : Memory.read rest k = Memory.unlisted := Memory.read_below hrest (by omega)
      refine Memory.read_cons ?_ v k'
      rw [Memory.read_cons_cell, if_neg (by omega), hbelow]
    · split
      · rename_i hka
        subst hka
        rw [Memory.read_cons (Memory.read_below hrest (by omega)), Memory.read_cons_cell]
        by_cases hk' : k' = k
        · rw [if_pos hk', if_pos hk']
        · rw [if_neg hk', if_neg hk', if_neg (Ne.symm hk')]
      · rename_i hka
        rw [Memory.read_cons_cell, Memory.read_cons_cell, ih hrest]
        by_cases hk' : a = k'
        · rw [if_pos hk', if_pos hk', if_neg (by omega)]
        · rw [if_neg hk', if_neg hk']

/-- Settles O59: by induction on the cells, a write in front of the first cell, at it, or behind it. -/
theorem imageWriteThenRead : Obligations.ImageWriteThenRead := by
  unfold Obligations.ImageWriteThenRead
  exact fun _ k k' v hwf => Memory.read_write hwf k k' v

/-- The first cell's key is read as its byte, which is no unlisted one. -/
theorem Memory.read_head_ne_unlisted {lo a : Nat} {v : Byte} {m : Memory} (h : Memory.wfFrom lo ((a, v) :: m) = true) :
    Memory.read ((a, v) :: m) a ≠ Memory.unlisted := by
  rw [Memory.read_cons_cell, if_pos rfl]
  obtain ⟨-, -, hv, -⟩ := Memory.wfFrom_cons_cell.mp h
  exact hv

/-- A store that reads at another's first key as the other does begins no higher: that byte is listed. -/
theorem Memory.head_le_head {lo lo' a b : Nat} {v w : Byte} {m m' : Memory} (h : Memory.wfFrom lo ((a, v) :: m) = true)
    (h' : Memory.wfFrom lo' ((b, w) :: m') = true) (hr : Memory.read ((a, v) :: m) a = Memory.read ((b, w) :: m') a) :
    b ≤ a := by
  by_contra hlt
  exact Memory.read_head_ne_unlisted h (hr.trans (Memory.read_below (Memory.wfFrom_head h') (by omega)))

theorem Memory.eq_of_read_eq {m m' : Memory} {lo lo' : Nat} (h : Memory.wfFrom lo m = true) (h' : Memory.wfFrom lo' m' = true)
    (hr : ∀ k, Memory.read m k = Memory.read m' k) : m = m' := by
  induction m generalizing lo lo' m' with
  | nil =>
    cases m' with
    | nil => rfl
    | cons c' rest' => exact absurd (hr c'.1).symm (Memory.read_head_ne_unlisted h')
  | cons c rest ih =>
    cases m' with
    | nil => exact absurd (hr c.1) (Memory.read_head_ne_unlisted h)
    | cons c' rest' =>
      obtain ⟨a, v⟩ := c
      obtain ⟨b, w⟩ := c'
      obtain rfl : a = b := le_antisymm (Memory.head_le_head h' h (hr b).symm) (Memory.head_le_head h h' (hr a))
      obtain rfl : v = w := by simpa using hr a
      have hrest : Memory.wfFrom (a + 1) rest = true := Memory.wfFrom_rest h
      have hrest' : Memory.wfFrom (a + 1) rest' = true := Memory.wfFrom_rest h'
      rw [ih hrest hrest' fun k => ?_]
      by_cases hk : a = k
      · subst hk
        rw [Memory.read_below hrest (by omega), Memory.read_below hrest' (by omega)]
      · simpa [hk] using hr k

/-- Settles O60: the first keys agree, since a first key is listed and nothing below it is; then by induction. -/
theorem canonicalImagesAreEqual : Obligations.CanonicalImagesAreEqual := by
  unfold Obligations.CanonicalImagesAreEqual
  exact fun _ _ => Memory.eq_of_read_eq

/-! ### No operation and no step writes the store (R50, R51) -/

theorem SameImage.refl (s : State) : SameImage s s := ⟨rfl, rfl⟩

theorem SameImage.trans {s t u : State} (h : SameImage s t) (h' : SameImage t u) : SameImage s u :=
  ⟨h'.1.trans h.1, h'.2.trans h.2⟩

/-- No phase of the sequencer writes the image store or the configuration. -/
theorem advance_sameImage {s t : State} (h : advance s = .next t) : SameImage s t := by
  cases hph : s.phase with
  | idle => rw [advance_idle hph] at h; cases h; exact .refl s
  | segPage =>
    cases hp : pageOk s.page with
    | true => rw [advance_segPage hph hp] at h; cases h; exact .refl s
    | false => rw [advance_segPage_fault hph hp] at h; cases h
  | segSub =>
    cases hk : subOk s.sub with
    | true => rw [advance_segSub hph hk] at h; cases h; exact .refl s
    | false => rw [advance_segSub_fault hph hk] at h; cases h
  | enc p =>
    obtain ⟨f, hf, -⟩ := encodeOf_next s.body p s
    simp only [advance, hph, hf, onNext_next] at h
    cases h
    exact .refl s
  | tx => obtain rfl | ⟨a, rest, k, p, -, -, rfl⟩ := advance_tx_cases hph h <;> exact .refl _
  | rx =>
    obtain rfl | ⟨a, rest, p, -, -, ht⟩ := advance_rx_cases hph h
    · exact .refl _
    · rw [ht]; exact .refl s
  | dec => obtain ⟨c, st, p, sl, r, hd⟩ := advance_dec hph; rw [hd] at h; cases h; exact .refl s
  | cls st => obtain ⟨c, hc⟩ := advance_cls hph; rw [hc] at h; cases h; exact .refl s
  | backoff => obtain rfl | ⟨n, -, rfl⟩ := advance_backoff_cases hph h <;> exact .refl _
  | judge r =>
    rw [advance_judge hph] at h
    cases h
    obtain hj | ⟨v, hj⟩ | hj := s.judge_cases r <;> rw [hj] <;> exact .refl s
  | ret r =>
    rw [advance_ret hph] at h
    cases h
    obtain hf | ⟨p, hf⟩ | ⟨q, hf⟩ | hf | hf | ⟨fs, q, p, c, hf⟩ := s.finishStep_cases r <;> rw [hf] <;> exact .refl s

theorem drive_sameImage {n : Nat} {s u t : State} (h : drive n u = .next t) (hs : SameImage s u) : SameImage s t :=
  drive_keeps (P := SameImage s) (fun _ _ hs' ha => hs'.trans (advance_sameImage ha)) hs h

/-- No operation writes the image store or the configuration: RETRY, the step bodies and RUN are phases of the sequencer. -/
theorem exec_sameImage {i : Instr} {s t : State} (h : exec i s = .next t) : SameImage s t := by
  cases i with
  | send o => obtain ⟨-, rfl⟩ | ⟨-, rfl⟩ := exec_send_cases h <;> exact .refl _
  | reset | start | data | endFrame | crcInit | crcSpan | encStart | encData | encEnd | refSreply | refDreply | refEreply
  | clsStart | clsData => cases h; exact .refl s
  | startReply | dataReply | endReply | decSreply | decDreply | decEreply => cases h; simp [SameImage]
  | crcByte | crcFin => cases h; split <;> exact .refl s
  | segPage q p =>
    simp only [exec, execSegPage] at h
    split at h <;> cases h
    exact .refl s
  | segSub k =>
    simp only [exec, execSegSub] at h
    split at h <;> cases h
    exact .refl s
  | retry | stepStart | stepPage | stepEnd | run => exact drive_sameImage h (.refl s)

theorem step_sameImage {s t : State} (h : step s = .next t) : SameImage s t := by
  obtain ⟨-, rfl⟩ | ⟨b, i, -, -, -, -, -, he⟩ | ⟨o, -, -, -, he⟩ | ⟨-, -, -, ha⟩ := step_cases h
  · exact .refl s
  · exact exec_sameImage (s := { s with bench := none }) he
  · exact exec_sameImage (s := s.nextInput) he
  · exact advance_sameImage (s := s.nextInput) ha

/-- Settles O47: every operation and every phase of the sequencer keeps the store, and a step is one of them. -/
theorem imageIsNeverWritten : Obligations.ImageIsNeverWritten := by
  unfold Obligations.ImageIsNeverWritten
  refine ⟨fun i s t h => ?_, fun s t => step_sameImage⟩
  have hsame : SameImage s t := exec_sameImage h
  exact ⟨hsame, fun q a => by rw [hsame.1]⟩

/-! ### The segmenter outside its ranges (R52, R191, R192; log 17) -/

theorem pageOk_eq_false {p : Page} (h : p.toNat = 0 ∨ 61 < p.toNat) : pageOk p = false := by
  simp only [pageOk, Config.pagesPerColor, Bool.and_eq_false_iff, decide_eq_false_iff_not]
  omega

theorem subOk_eq_false {k : Sub} (h : k.toNat = 0 ∨ 5 < k.toNat) : subOk k = false := by
  simp only [subOk, Bool.and_eq_false_iff, decide_eq_false_iff_not]
  omega

/-- A drive that cannot perform its first phase stops with that phase's fault. -/
theorem drive_fault {s : State} {r : Fault} (h : s.atRest = false) (ha : advance s = .fault r) (n : Nat) :
    drive (n + 1) s = .fault r := by
  simp [drive, h, ha]

/-- A page attempt begins with SEG.PAGE, so of a page that does not exist it stops at once. -/
theorem drive_page_fault {s : State} (h : s.phase = .segPage) (hp : pageOk s.page = false) (n : Nat) :
    drive (n + 1) s = .fault (.pageRange s.page) :=
  drive_fault (by simp [State.atRest, h]) (advance_segPage_fault h hp) n

/-- Settles O27: SEG.PAGE and SEG.SUB test their operand, and a page attempt's first phase is SEG.PAGE of the register. -/
theorem segmenterStopsOutOfRange : Obligations.SegmenterStopsOutOfRange := by
  unfold Obligations.SegmenterStopsOutOfRange
  refine fun s q p k => ⟨fun hp => ?_, fun hk => ?_, fun hp => ⟨?_, ?_⟩⟩
  · simp [exec, execSegPage, pageOk_eq_false hp]
  · simp [exec, execSegSub, subOk_eq_false hk]
  · exact drive_page_fault (s := s.enterBody .page) rfl (pageOk_eq_false hp) _
  · exact drive_page_fault (s := s.enterRetry .page .retry) rfl (pageOk_eq_false hp) _

/-! ### What a step runs (R62, R98; log 14, log 29) -/

theorem runWord_of_decode {b : BenchWord} {i : Instr} {s : State} (h : decode (s.ctx b.ending) b.word = .ok i) :
    runWord b s = exec i s := by
  simp only [runWord, h]

theorem State.benchWord_eq_none {s : State} (h : s.running = true ∨ s.bench = none) : s.benchWord = none := by
  obtain hrun | hbench := h
  · exact State.benchWord_of_running hrun
  · simp [State.benchWord, hbench]

/-- Settles O5: the bench word comes first and only when nothing runs, then the command, then a phase. -/
theorem stepRunsThePresentedWord : Obligations.StepRunsThePresentedWord := by
  unfold Obligations.StepRunsThePresentedWord
  refine ⟨fun s b i hp hrun hbench hd => ?_, fun s hp hfree => ⟨fun o hc => ?_, fun hc => ?_⟩⟩
  · rw [step_bench hp ((State.benchWord_of_rest hrun).trans hbench)]
    exact runWord_of_decode hd
  · exact step_command hp (State.benchWord_eq_none hfree) hc
  · exact step_pause hp (State.benchWord_eq_none hfree) hc

end Sys2Proof.Machine
end

section
/-! PROOFS. The wire codec (R80 to R98): the packing of bytes, the six layouts byte by byte, and for each decoder the frames it
accepts, in both directions; together they are what the decoder reads of any word. -/

namespace Sys2Proof
open Machine

/-! ### Bytes and their packing (R12) -/

theorem extractLsb'_u16le {b : List Byte} {o k : Nat} (hk : k < 2) : (u16le b o).extractLsb' (8 * k) 8 = byteAt b (o + k) := by
  ext i hi
  interval_cases k
  all_goals grind [u16le]

theorem extractLsb'_u32le {b : List Byte} {o k : Nat} (hk : k < 4) : (u32le b o).extractLsb' (8 * k) 8 = byteAt b (o + k) := by
  ext i hi
  interval_cases k
  all_goals grind [u32le]

/-- Packing what was unpacked gives the bytes back. -/
theorem le16_u16le (b : List Byte) (o : Nat) : le16 (u16le b o) = [byteAt b o, byteAt b (o + 1)] := by
  have hbyte (k : Nat) (hk : k < 2) := extractLsb'_u16le (b := b) (o := o) hk
  simp only [le16, List.cons.injEq, and_true]
  exact ⟨hbyte 0 (by decide), hbyte 1 (by decide)⟩

theorem le32_u32le (b : List Byte) (o : Nat) :
    le32 (u32le b o) = [byteAt b o, byteAt b (o + 1), byteAt b (o + 2), byteAt b (o + 3)] := by
  have hbyte (k : Nat) (hk : k < 4) := extractLsb'_u32le (b := b) (o := o) hk
  simp only [le32, List.cons.injEq, and_true]
  exact ⟨hbyte 0 (by decide), hbyte 1 (by decide), hbyte 2 (by decide), hbyte 3 (by decide)⟩

theorem le16_injective {v w : Half} (h : le16 v = le16 w) : v = w := by
  simp only [le16, List.cons.injEq, ← BitVec.toNat_inj, BitVec.extractLsb'_toNat, Nat.shiftRight_eq_div_pow] at h
  refine BitVec.eq_of_toNat_eq ?_
  omega

theorem le32_injective {v w : Word} (h : le32 v = le32 w) : v = w := by
  simp only [le32, List.cons.injEq, ← BitVec.toNat_inj, BitVec.extractLsb'_toNat, Nat.shiftRight_eq_div_pow] at h
  refine BitVec.eq_of_toNat_eq ?_
  omega

/-- Unpacking the bytes of a packed value gives the value. -/
theorem u16le_eq {b : List Byte} {o : Nat} {v : Half} (h : [byteAt b o, byteAt b (o + 1)] = le16 v) : u16le b o = v :=
  le16_injective ((le16_u16le b o).trans h)

theorem u32le_eq {b : List Byte} {o : Nat} {v : Word}
    (h : [byteAt b o, byteAt b (o + 1), byteAt b (o + 2), byteAt b (o + 3)] = le32 v) : u32le b o = v :=
  le32_injective ((le32_u32le b o).trans h)

/-- A stretch of a sequence is its bytes in order. -/
theorem map_byteAt_range {b : List Byte} {o n : Nat} (h : o + n ≤ b.length) :
    ((List.range n).map fun i => byteAt b (o + i)) = (b.drop o).take n := by
  refine List.ext_getElem (by simp; omega) fun i hi _ => ?_
  simp only [List.length_map, List.length_range] at hi
  simp [byteAt, List.getD_eq_getElem?_getD, List.getElem?_eq_getElem (show o + i < b.length by omega)]

/-- A sequence of known length, written out. -/
theorem map_byteAt_length {b : List Byte} {n : Nat} (h : b.length = n) : (List.range n).map (byteAt b) = b := by
  have hall := map_byteAt_range (b := b) (o := 0) (n := n) (by omega)
  simpa [← h] using hall

/-- A sequence shorter than its place is followed by zeros. -/
theorem fit_of_length_le {n : Nat} {b : List Byte} (h : b.length ≤ n) : fit n b = b ++ zeros (n - b.length) := by
  simp [fit, zeros, List.take_append, List.take_of_length_le h]

/-! ### The bits of the fields (R88 to R90) -/

/-- The high bits of a byte, those of the mask, are clear exactly when its low bits are all of it. -/
theorem setWidth_extractLsb'_iff {n : Nat} {m x : Byte} (hm : ∀ i : Fin 8, m[i] = decide (n ≤ i)) :
    (x.extractLsb' 0 n).setWidth 8 = x ↔ x &&& m = 0 := by
  have hlow (i : Nat) (hi : i < 8) : ((x.extractLsb' 0 n).setWidth 8)[i] = (decide (i < n) && x[i]) := by simp [hi]
  have hhigh (i : Nat) (hi : i < 8) : (x &&& m)[i] = (x[i] && decide (n ≤ i)) := by
    simp [show m[i] = decide (n ≤ i) from hm ⟨i, hi⟩]
  constructor
  · intro h
    ext i hi
    grind
  · intro h
    ext i hi
    grind

theorem extractLsb'_setWidth_byte {n : Nat} (v : BitVec n) (hn : n ≤ 8) : (v.setWidth 8).extractLsb' 0 n = v := by
  rw [BitVec.extractLsb'_setWidth_of_le (by omega), BitVec.extractLsb'_eq_self]

/-- A field in the low bits of a byte leaves the bits of the mask clear. -/
theorem setWidth_and_mask {n : Nat} (v : BitVec n) {m : Byte} (hn : n ≤ 8) (hm : ∀ i : Fin 8, m[i] = decide (n ≤ i)) :
    v.setWidth 8 &&& m = 0 := by
  rw [← setWidth_extractLsb'_iff hm, extractLsb'_setWidth_byte v hn]

/-- `colorslot8` is the plane's bit over the slot's four (R89). -/
theorem colorSlot_eq (q : Plane) (s : Slot) : colorSlot q s = (q ++ s).setWidth 8 := by decide +revert

theorem colorSlot_slot (q : Plane) (s : Slot) : (colorSlot q s).extractLsb' 0 4 = s := by decide +revert

theorem colorSlot_plane (q : Plane) (s : Slot) : (colorSlot q s).extractLsb' 4 1 = q := by decide +revert

theorem colorSlot_zero (s : Slot) : colorSlot 0 s = s.setWidth 8 := by decide +revert

theorem colorSlot_and_mask (q : Plane) (s : Slot) : colorSlot q s &&& 0xE0 = 0 := by
  rw [colorSlot_eq]
  exact setWidth_and_mask (q ++ s) (by decide) (by decide)

/-- A byte with its top three bits clear is the `colorslot8` of its fields. -/
theorem colorSlot_of_mask {x : Byte} (h : x &&& 0xE0 = 0) : colorSlot (x.extractLsb' 4 1) (x.extractLsb' 0 4) = x := by
  have hbits : x.extractLsb' 4 1 ++ x.extractLsb' 0 4 = x.extractLsb' 0 5 :=
    BitVec.extractLsb'_append_extractLsb'_eq_extractLsb' rfl
  rw [colorSlot_eq, hbits]
  exact (setWidth_extractLsb'_iff (by decide)).mpr h

/-- A 16-bit command with a slot or-ed in: the high byte stays zero (R90). -/
theorem le16_or_slot (cmd : Byte) (s : Slot) :
    le16 (cmd.setWidth 16 ||| s.setWidth 16) = [cmd ||| s.setWidth 8, 0x00] := by
  have hlow : (cmd.setWidth 16 ||| s.setWidth 16).extractLsb' 0 8 = cmd ||| s.setWidth 8 := by
    ext i hi
    grind
  have hhigh : (cmd.setWidth 16 ||| s.setWidth 16).extractLsb' 8 8 = 0 := by
    ext i hi
    grind
  simp [le16, hlow, hhigh]

/-! ### The host frames of ten bytes, and where they collide (R82, R83, R97) -/

theorem startFrame_bytes (q : Plane) (s : Slot) :
    startFrame q s = [0xA5, 0xA5, 0xC0 ||| s.setWidth 8, 0x00, colorSlot q s, 0x00, 0xAF, 0xAF, 0xA5, 0xA5] :=
  congrArg (fun cmd => le16 Config.hostMagic ++ cmd ++ [colorSlot q s, 0x00] ++ le32 Config.hostEnd) (le16_or_slot 0xC0 s)

theorem endFrame_bytes (s : Slot) :
    endFrameBytes s = [0xA5, 0xA5, 0xC1 ||| s.setWidth 8, 0x00, s.setWidth 8, 0x00, 0xAF, 0xAF, 0xA5, 0xA5] :=
  congrArg (fun cmd => le16 Config.hostMagic ++ cmd ++ [s.setWidth 8, 0x00] ++ le32 Config.hostEnd) (le16_or_slot 0xC1 s)

/-- Commands `0xC1 | s` and `0xC0 | s` are the same for odd slots only. -/
theorem cmdEnd_eq_cmdStart_iff (s : Slot) : (0xC1 : Byte) ||| s.setWidth 8 = 0xC0 ||| s.setWidth 8 ↔ s.getLsbD 0 = true := by
  decide +revert

theorem cmdEnd_of_even {s : Slot} (h : s.getLsbD 0 = false) : (0xC1 : Byte) ||| s.setWidth 8 = 0xC0 ||| (s + 1).setWidth 8 := by
  decide +revert

/-- An END frame is a START frame exactly when the slot is odd, the plane is 0 and the slots agree (R97). -/
theorem endFrame_eq_startFrame_iff {q : Plane} {s s' : Slot} :
    endFrameBytes s = startFrame q s' ↔ q = 0 ∧ s' = s ∧ s.getLsbD 0 = true := by
  rw [startFrame_bytes, endFrame_bytes, ← cmdEnd_eq_cmdStart_iff]
  constructor
  · intro h
    simp only [List.cons.injEq, true_and, and_true] at h
    obtain ⟨hcmd, hcolor⟩ := h
    rw [← colorSlot_zero] at hcolor
    have hslot := congrArg (BitVec.extractLsb' 0 4) hcolor
    have hplane := congrArg (BitVec.extractLsb' 4 1) hcolor
    rw [colorSlot_slot, colorSlot_slot] at hslot
    rw [colorSlot_plane, colorSlot_plane] at hplane
    subst hslot hplane
    exact ⟨rfl, rfl, hcmd⟩
  · rintro ⟨rfl, rfl, hcmd⟩
    rw [hcmd, colorSlot_zero]

/-- Settles O4: the bytes of both frames, and where they are equal. -/
theorem startAndEndCollideForOddSlotsOnly : Obligations.StartAndEndCollideForOddSlotsOnly := by
  unfold Obligations.StartAndEndCollideForOddSlotsOnly
  refine ⟨fun s hodd => ⟨?_, endFrame_eq_startFrame_iff.mpr ⟨rfl, rfl, hodd⟩⟩, fun s heven => ⟨?_, ?_, fun q s' heq => ?_⟩⟩
  · rw [startFrame_bytes, colorSlot_zero]
  · rw [endFrame_bytes, cmdEnd_of_even heven]
    rfl
  · rw [endFrame_bytes]
    rfl
  · obtain ⟨-, -, hodd⟩ := endFrame_eq_startFrame_iff.mp heq
    rw [heven] at hodd
    cases hodd

/-! ### The decoder of the ten-byte host frames (R97) -/

/-- A check of a decoder: a word that is read has passed it. -/
theorem passed_of_eq_ok {p : Prop} [Decidable p] {r : Reject} {d : Decoded} {i : Instr}
    (h : (if p then .reject r else d) = .ok i) : ¬ p ∧ d = .ok i := by
  split at h
  · cases h
  · exact ⟨‹_›, h⟩

theorem tells_endFrame_iff {c : Ctx} {s : Slot} :
    c.tells (.endFrame s) = true ↔ c.ending = true ∨ endFrameBytes s ≠ startFrame 0 s := by
  simp [Ctx.tells, endFrame_eq_startFrame_iff]

theorem tells_start_iff {c : Ctx} {q : Plane} {s : Slot} :
    c.tells (.start q s) = true ↔ (startFrame q s = endFrameBytes s → c.ending = false) := by
  have hplane : q = 0 ↔ q ≠ 1 := by decide +revert
  rw [eq_comm (a := startFrame q s), endFrame_eq_startFrame_iff, hplane]
  simp only [Ctx.tells, Bool.or_eq_true, Bool.not_eq_true', beq_iff_eq]
  grind

theorem plane_of_endFrame (s : Slot) : (byteAt (endFrameBytes s) 4).extractLsb' 4 1 = (0 : Plane) := by
  change (s.setWidth 8).extractLsb' 4 1 = (0 : Plane)
  rw [← colorSlot_zero, colorSlot_plane]

/-- An END frame is read as one where the position tells it apart. -/
theorem decodeHost10_endFrame {c : Ctx} {s : Slot} (h : c.tells (.endFrame s) = true) :
    decodeHost10 c (endFrameBytes s) = .ok (.endFrame s) := by
  have hmarker : u32le (endFrameBytes s) 6 = Config.hostEnd := u32le_eq rfl
  have hfixed : byteAt (endFrameBytes s) 5 = 0 ∧ byteAt (endFrameBytes s) 3 = 0 := by simp [endFrame_bytes, byteAt]
  have hslot : (byteAt (endFrameBytes s) 4).extractLsb' 0 4 = s := extractLsb'_setWidth_byte s (by decide)
  simp only [decodeHost10, hmarker, hfixed, hslot, plane_of_endFrame, ne_eq, not_true_eq_false, or_self, if_false]
  exact if_pos ⟨trivial, tells_endFrame_iff.mp h⟩

theorem decodeHost10_startFrame {c : Ctx} {q : Plane} {s : Slot} (h : c.tells (.start q s) = true) :
    decodeHost10 c (startFrame q s) = .ok (.start q s) := by
  have hmarker : u32le (startFrame q s) 6 = Config.hostEnd := u32le_eq rfl
  have hfixed : byteAt (startFrame q s) 5 = 0 ∧ byteAt (startFrame q s) 3 = 0 := by simp [startFrame_bytes, byteAt]
  have hslot : (byteAt (startFrame q s) 4).extractLsb' 0 4 = s := colorSlot_slot q s
  have hplane : (byteAt (startFrame q s) 4).extractLsb' 4 1 = q := colorSlot_plane q s
  simpa [decodeHost10, hmarker, hfixed, hslot, hplane] using tells_start_iff.mp h

/-- What the ten-byte host decoder reads is a START or END frame: it compares the word with both. -/
theorem encode_of_decodeHost10 {c : Ctx} {b : List Byte} {i : Instr} (h : decodeHost10 c b = .ok i) :
    encode c i = some b := by
  simp only [decodeHost10] at h
  obtain ⟨-, h⟩ := passed_of_eq_ok h
  obtain ⟨-, h⟩ := passed_of_eq_ok h
  split at h
  · rename_i hend
    cases h
    exact congrArg some hend.1.symm
  split at h
  · rename_i hstart
    cases h
    exact congrArg some hstart.symm
  · cases (passed_of_eq_ok h).2

/-! ### The replies (R86, R87) -/

theorem startReplyFrame_magic (c : Half) (st r : Byte) : u16le (startReplyFrame c st r) 0 = Config.devMagic := u16le_eq rfl

theorem startReplyFrame_command (c : Half) (st r : Byte) : u16le (startReplyFrame c st r) 2 = c := u16le_eq rfl

theorem startReplyFrame_marker (c : Half) (st r : Byte) : u32le (startReplyFrame c st r) 6 = Config.devEnd := u32le_eq rfl

theorem decodeStartReply_frame (c : Half) (st r : Byte) :
    decodeStartReply (startReplyFrame c st r) = .ok (.startReply c st r) := by
  rw [decodeStartReply, if_neg (not_not.mpr (startReplyFrame_magic c st r)),
    if_neg (not_not.mpr (startReplyFrame_marker c st r)), startReplyFrame_command]
  rfl

theorem encode_of_decodeStartReply {c : Ctx} {b : List Byte} {i : Instr} (hl : b.length = 10)
    (h : decodeStartReply b = .ok i) : encode c i = some b := by
  rw [decodeStartReply] at h
  obtain ⟨hmagic, h⟩ := passed_of_eq_ok h
  obtain ⟨hmarker, h⟩ := passed_of_eq_ok h
  rw [ne_eq, not_not] at hmagic hmarker
  cases h
  rw [encode, startReplyFrame, ← hmagic, ← hmarker, le16_u16le, le16_u16le, le32_u32le]
  exact congrArg some (map_byteAt_length hl)

theorem dataReplyFrame_magic (c : Half) (p st : Byte) : u16le (dataReplyFrame c p st) 0 = Config.devMagic := u16le_eq rfl

theorem dataReplyFrame_command (c : Half) (p st : Byte) : u16le (dataReplyFrame c p st) 2 = c := u16le_eq rfl

theorem decodeDataReply_frame (c : Half) (p st : Byte) :
    decodeDataReply (dataReplyFrame c p st) = .ok (.dataReply c p st) := by
  rw [decodeDataReply, if_neg (not_not.mpr (dataReplyFrame_magic c p st)), dataReplyFrame_command]
  rfl

theorem encode_of_decodeDataReply {c : Ctx} {b : List Byte} {i : Instr} (hl : b.length = 6)
    (h : decodeDataReply b = .ok i) : encode c i = some b := by
  rw [decodeDataReply] at h
  obtain ⟨hmagic, h⟩ := passed_of_eq_ok h
  rw [ne_eq, not_not] at hmagic
  cases h
  rw [encode, dataReplyFrame, ← hmagic, le16_u16le, le16_u16le]
  exact congrArg some (map_byteAt_length hl)

/-- What an END_REPLY of the configured length keeps of `slot16`: nothing in 8 bytes, where the marker's low half stands in its
place (R87). -/
def slotKept (n : Config.EndLen) (sl : Half) : Half := match n with | .eight => 0x5F5F | .ten => sl

theorem endReplyFrame_magic (n : Config.EndLen) (c sl : Half) : u16le (endReplyFrame n c sl) 0 = Config.devMagic := by
  cases n <;> exact u16le_eq rfl

theorem endReplyFrame_command (n : Config.EndLen) (c sl : Half) : u16le (endReplyFrame n c sl) 2 = c := by
  cases n <;> exact u16le_eq rfl

theorem endReplyFrame_slot (n : Config.EndLen) (c sl : Half) : u16le (endReplyFrame n c sl) 4 = slotKept n sl := by
  cases n with
  | eight =>
    have hlow : [Config.devEnd.extractLsb' 0 8, Config.devEnd.extractLsb' 8 8] = le16 0x5F5F := by decide
    exact u16le_eq hlow
  | ten => exact u16le_eq rfl

theorem endReplyFrame_marker (n : Config.EndLen) (c sl : Half) :
    u32le (endReplyFrame n c sl) (n.bytes - 4) = Config.devEnd := by
  cases n <;> exact u32le_eq rfl

theorem decodeEndReply_frame (n : Config.EndLen) (c sl : Half) :
    decodeEndReply n (endReplyFrame n c sl) = .ok (.endReply c (slotKept n sl)) := by
  simp [decodeEndReply, endReplyFrame_magic, endReplyFrame_command, endReplyFrame_slot, endReplyFrame_marker]

theorem encode_of_decodeEndReply {c : Ctx} {b : List Byte} {i : Instr} (hl : b.length = c.endLen.bytes)
    (h : decodeEndReply c.endLen b = .ok i) : encode c i = some b := by
  rw [decodeEndReply] at h
  obtain ⟨hmagic, h⟩ := passed_of_eq_ok h
  obtain ⟨hmarker, h⟩ := passed_of_eq_ok h
  rw [ne_eq, not_not] at hmagic hmarker
  cases h
  rw [encode, endReplyFrame, ← hmagic, ← hmarker, le16_u16le, le16_u16le, le16_u16le, le32_u32le]
  refine congrArg some (Eq.trans ?_ (map_byteAt_length hl))
  cases c.endLen <;> rfl

/-! ### The DATA frame (R84) -/

theorem dataFrame_marker (q : Plane) (s : Slot) (p : Page) (k : Sub) (r : List Byte) :
    u32le (dataFrame q s p k r) 60 = Config.hostEnd := by
  have hlen : (dataHeader q s p k ++ fit 52 r).length = 60 := by simp
  have hbyte (j : Nat) : byteAt (dataFrame q s p k r) (60 + j) = byteAt (le32 Config.hostEnd) j := by
    rw [byteAt, dataFrame_eq_header, List.getD_append_right _ _ _ _ (by omega), hlen, Nat.add_sub_cancel_left, byteAt]
  refine u32le_eq ?_
  rw [hbyte 0, hbyte 1, hbyte 2, hbyte 3]
  rfl

theorem dataFrame_region (q : Plane) (s : Slot) (p : Page) (k : Sub) (r : List Byte) :
    ((dataFrame q s p k r).drop 8).take 52 = fit 52 r := by
  rw [dataFrame_eq_header, List.append_assoc, List.drop_left' (dataHeader_length q s p k), List.take_left' (fit_length 52 r)]

theorem decodeData_frame {q : Plane} {s : Slot} {p : Page} {k : Sub} {r : List Byte} (hr : r.length = 52) :
    decodeData (dataFrame q s p k r) = .ok (.data q s p k r) := by
  have hmagic : u16le (dataFrame q s p k r) 0 = Config.hostMagic := u16le_eq rfl
  have hcmd : u16le (dataFrame q s p k r) 2 = Config.cmdData := u16le_eq rfl
  have hcolor : byteAt (dataFrame q s p k r) 4 = colorSlot q s := rfl
  have hpage : byteAt (dataFrame q s p k r) 5 = p.setWidth 8 := rfl
  have hsub : byteAt (dataFrame q s p k r) 6 = k.setWidth 8 := rfl
  have hzero : byteAt (dataFrame q s p k r) 7 = 0 := rfl
  have hregion := dataFrame_region q s p k r
  rw [fit_of_length hr] at hregion
  have hpageBits : p.setWidth 8 &&& 0xC0 = (0 : Byte) := setWidth_and_mask p (by decide) (by decide)
  have hsubBits : k.setWidth 8 &&& 0xF8 = (0 : Byte) := setWidth_and_mask k (by decide) (by decide)
  simp only [decodeData, hmagic, hcmd, dataFrame_marker, hcolor, hpage, hsub, hzero, colorSlot_and_mask, hpageBits, hsubBits,
    ne_eq, not_true_eq_false, or_self, if_false, colorSlot_plane, colorSlot_slot, Config.wirePayload, hregion,
    extractLsb'_setWidth_byte p (by decide), extractLsb'_setWidth_byte k (by decide)]

theorem encode_of_decodeData {c : Ctx} {b : List Byte} {i : Instr} (hl : b.length = 64)
    (h : decodeData b = .ok i) : encode c i = some b := by
  rw [decodeData] at h
  obtain ⟨hmagic, h⟩ := passed_of_eq_ok h
  obtain ⟨hcmd, h⟩ := passed_of_eq_ok h
  obtain ⟨hmarker, h⟩ := passed_of_eq_ok h
  obtain ⟨hbits, h⟩ := passed_of_eq_ok h
  simp only [ne_eq, not_or, not_not] at hmagic hcmd hmarker hbits
  obtain ⟨hzero, hcolor, hpage, hsub⟩ := hbits
  cases h
  rw [encode, dataFrame, ← hmagic, ← hcmd, ← hmarker, le16_u16le, le16_u16le, le32_u32le, colorSlot_of_mask hcolor,
    (setWidth_extractLsb'_iff (n := 6) (by decide)).mpr hpage, (setWidth_extractLsb'_iff (n := 3) (by decide)).mpr hsub,
    fit_of_length (by simp [hl, Config.wirePayload]), ← map_byteAt_range (by simp [hl, Config.wirePayload]), ← hzero]
  exact congrArg some (map_byteAt_length hl)

/-! ### The decoder -/

theorem decode_host {c : Ctx} {b : List Byte} (hl : b.length = 10) (hm : u16le b 0 = Config.hostMagic) :
    decode c b = decodeHost10 c b := by simp [decode, hl, hm]

theorem decode_data {c : Ctx} {b : List Byte} (hl : b.length = 64) : decode c b = decodeData b := by simp [decode, hl]

theorem decode_dataReply {c : Ctx} {b : List Byte} (hl : b.length = 6) : decode c b = decodeDataReply b := by
  simp [decode, hl]

/-- A device's ten bytes are a START_REPLY unless the position is that of a ten-byte END_REPLY (R80, R87). -/
theorem decode_startReply {c : Ctx} {b : List Byte} (hl : b.length = 10) (hm : u16le b 0 = Config.devMagic)
    (hpos : c.endLen = .ten → c.ending = false) : decode c b = decodeStartReply b := by
  simpa [decode, hl, hm] using fun hn he => absurd (hpos hn) (by simp [he])

theorem decode_endReply {c : Ctx} {b : List Byte} (hl : b.length = c.endLen.bytes) (hm : u16le b 0 = Config.devMagic)
    (hpos : c.endLen = .ten → c.ending = true) : decode c b = decodeEndReply c.endLen b := by
  cases hn : c.endLen with
  | eight => simp [decode, hl, hn, Config.EndLen.bytes]
  | ten => simp [decode, hl, hm, hn, hpos hn, Config.EndLen.bytes]

theorem length_of_regionOk {k : Sub} {r : List Byte} (h : regionOk k r = true) : r.length = 52 := by
  rw [regionOk, Bool.and_eq_true, beq_iff_eq] at h
  exact h.1

/-- Settles O1: each kind of frame is read by its own decoder, which its length, its magic and the position select. -/
theorem decodeOfEncodeIsTheFrame : Obligations.DecodeOfEncodeIsTheFrame := by
  unfold Obligations.DecodeOfEncodeIsTheFrame
  intro c i b hwf htell henc
  cases i with
  | start q s =>
    cases henc
    exact (decode_host rfl (u16le_eq rfl)).trans (decodeHost10_startFrame htell)
  | endFrame s =>
    cases henc
    exact (decode_host rfl (u16le_eq rfl)).trans (decodeHost10_endFrame htell)
  | data q s p k r =>
    cases henc
    rw [Instr.wf, Bool.and_eq_true] at hwf
    exact (decode_data (by simp)).trans (decodeData_frame (length_of_regionOk hwf.2))
  | startReply c' st r =>
    cases henc
    have hpos : c.endLen = .ten → c.ending = false := fun hn => by simpa [Ctx.tells, hn] using htell
    exact (decode_startReply rfl (startReplyFrame_magic c' st r) hpos).trans (decodeStartReply_frame c' st r)
  | dataReply c' p st =>
    cases henc
    exact (decode_dataReply rfl).trans (decodeDataReply_frame c' p st)
  | endReply c' sl =>
    cases henc
    have hpos : c.endLen = .ten → c.ending = true := fun hn => by simpa [Ctx.tells, hn] using htell
    exact (decode_endReply (by simp) (endReplyFrame_magic c.endLen c' sl) hpos).trans (decodeEndReply_frame c.endLen c' sl)
  | send o => cases henc; rfl
  | reset | crcInit | crcByte | crcFin | crcSpan | encStart | encData | encEnd | refSreply | refDreply | refEreply
  | decSreply | decDreply | decEreply | clsStart | clsData | segPage | segSub | retry | stepStart | stepPage | stepEnd
  | run => cases henc

/-- Settles O2: by the length of the word, each decoder's own converse. -/
theorem encodeOfDecodeIsTheWord : Obligations.EncodeOfDecodeIsTheWord := by
  unfold Obligations.EncodeOfDecodeIsTheWord
  intro c b i h
  rw [decode] at h
  split at h
  · rename_i hl
    cases h
    exact congrArg some (map_byteAt_length hl)
  split at h
  · rename_i hl
    exact encode_of_decodeDataReply hl h
  split at h
  · rename_i hl
    split at h
    · rename_i hn
      rw [← hn] at h
      exact encode_of_decodeEndReply (by rw [hl, hn]; rfl) h
    · cases h
  split at h
  · rename_i hl
    split at h
    · exact encode_of_decodeHost10 h
    split at h
    · rename_i hn
      rw [← hn.1] at h
      exact encode_of_decodeEndReply (by rw [hl, hn.1]; rfl) h
    · exact encode_of_decodeStartReply hl h
  split at h
  · rename_i hl
    exact encode_of_decodeData hl h
  · cases h

/-- Settles O3: the eight words are concrete, and the decoder runs on each. -/
theorem wordsOfTheLayoutsDecode : Obligations.WordsOfTheLayoutsDecode := by
  unfold Obligations.WordsOfTheLayoutsDecode
  exact ⟨by decide, by decide, by decide, by decide, by decide, by decide, by decide, by decide⟩

end Sys2Proof
end

section
/-! PROOFS. The frames' rows executed (log 11), the end-marker over a DATA frame's payload, and the word on the test bench that a
step runs or refuses (log 14, log 18, log 29). -/

namespace Sys2Proof.Machine

/-! ### The host frames in `tx_buf` (R82 to R84, R140) -/

/-- A frame put in `tx_buf` stands at its start, the bytes beyond it stay (R140). -/
theorem State.putFrame_txBuf_toList (s : State) {f : List Byte} (h : f.length ≤ 64) :
    (s.putFrame f).txBuf.toList = f ++ s.txBuf.toList.drop f.length := by
  rw [State.putFrame_txBuf, bufOf_toList, poke_zero, fit_of_length (by simp [h])]

/-- The 64 bytes of a DATA frame whose payload fills its region (R84). -/
theorem dataFrame_bytes (q : Plane) (sl : Slot) (p : Page) (k : Sub) {r : List Byte} (h : r.length = 52) :
    dataFrame q sl p k r = [0xA5, 0xA5, 0xD0, 0x00, colorSlot q sl, p.setWidth 8, k.setWidth 8, 0x00] ++ r
      ++ [0xAF, 0xAF, 0xA5, 0xA5] := by
  rw [dataFrame_eq_header, fit_of_length h]
  rfl

theorem colorSlot_eq_ite (q : Plane) (sl : Slot) : colorSlot q sl = (if q = 1 then 0x10 else 0x00) ||| sl.setWidth 8 := rfl

/-- Settles O17: each row is `putFrame` of its frame. -/
theorem hostFrameRows : Obligations.HostFrameRows := by
  unfold Obligations.HostFrameRows
  intro s q sl p k r
  refine ⟨⟨_, rfl, rfl, s.putFrame_txBuf_toList (by simp)⟩, ⟨_, rfl, rfl, s.putFrame_txBuf_toList (by simp)⟩, fun hwf => ?_⟩
  rw [Instr.wf, Bool.and_eq_true] at hwf
  have hr : r.length = 52 := length_of_regionOk hwf.2
  refine ⟨s.putFrame (dataFrame q sl p k r), rfl, ?_, ?_⟩
  · simp [State.putFrame]
  · rw [s.putFrame_txBuf_toList (by simp), dataFrame_bytes q sl p k hr, colorSlot_eq_ite]
    simp [hr]

/-- Settles O16: the region of a DATA frame holds the payload cut or padded to 52 bytes. -/
theorem endMarkerOverwritesPayload : Obligations.EndMarkerOverwritesPayload := by
  unfold Obligations.EndMarkerOverwritesPayload
  refine ⟨fun q sl p k x y hx hy hxy => ?_, fun q sl p d w hd => ?_⟩
  · have hfit : fit 52 x = fit 52 y := by
      rw [fit, fit, List.take_append_of_le_length (by omega), List.take_append_of_le_length (by omega), hxy]
    rw [dataWrites_eq_dataFrame, dataWrites_eq_dataFrame, dataFrame_eq_header, dataFrame_eq_header, hfit]
  · rw [dataWrites_eq_dataFrame, dataFrame_region, fit_of_length_le (by simp [hd]), zeros]
    simp [hd]

/-! ### The reply frames decoded (R86, R87, R161 to R163) -/

theorem decodeCommon_ok {b : List Byte} {n : Nat} {hasMarker : Bool} (hl : b.length = n) (hm : u16le b 0 = Config.devMagic)
    (he : hasMarker = true → u32le b (n - 4) = Config.devEnd) : decodeCommon b n hasMarker = .ok () := by
  rw [decodeCommon, if_neg (not_not.mpr hl), if_neg (not_not.mpr hm), if_neg fun h => h.2 (he h.1)]

theorem startReplyOf_frame (c : Half) (st r : Byte) : startReplyOf (startReplyFrame c st r) = .ok ⟨c, st, r⟩ := by
  have hcommon : decodeCommon (startReplyFrame c st r) Config.lenStartReply true = .ok () :=
    decodeCommon_ok rfl (startReplyFrame_magic c st r) fun _ => startReplyFrame_marker c st r
  simp only [startReplyOf, hcommon, startReplyFrame_command]
  rfl

theorem dataReplyOf_frame (c : Half) (p st : Byte) : dataReplyOf (dataReplyFrame c p st) = .ok ⟨c, p, st⟩ := by
  have hcommon : decodeCommon (dataReplyFrame c p st) Config.lenDataReply false = .ok () :=
    decodeCommon_ok rfl (dataReplyFrame_magic c p st) nofun
  simp only [dataReplyOf, hcommon, dataReplyFrame_command]
  rfl

theorem endReplyOf_frame (n : Config.EndLen) (c sl : Half) : endReplyOf n (endReplyFrame n c sl) = .ok ⟨c, slotKept n sl⟩ := by
  have hcommon : decodeCommon (endReplyFrame n c sl) n.bytes true = .ok () :=
    decodeCommon_ok (by simp) (endReplyFrame_magic n c sl) fun _ => endReplyFrame_marker n c sl
  simp only [endReplyOf, hcommon, endReplyFrame_command, endReplyFrame_slot]

/-- Settles O24: a reply's row is its decoder on the frame's bytes, which decode to the frame's fields. -/
theorem replyFrameRows : Obligations.ReplyFrameRows := by
  unfold Obligations.ReplyFrameRows
  intro s c sl st r p
  refine ⟨?_, rfl, ?_, rfl, ⟨slotKept s.endLen sl, rfl, ?_⟩, rfl⟩
  · simp only [exec, execStartReply, startReplyOf_frame]
    rfl
  · simp only [exec, execDataReply, dataReplyOf_frame]
    rfl
  · simp only [exec, execEndReply, endReplyOf_frame]
    rfl

/-! ### The word on the test bench (log 14, log 18, log 29) -/

theorem runWord_of_reject {b : BenchWord} {r : Reject} {s : State} (h : decode (s.ctx b.ending) b.word = .reject r) :
    runWord b s = .refused (.undecodable r) := by
  simp only [runWord, h]

/-- Settles O7: with the pin low and nothing running, the step is `runWord`. -/
theorem undecodableWordIsRefused : Obligations.UndecodableWordIsRefused := by
  unfold Obligations.UndecodableWordIsRefused
  intro s b r hp hrun hbench hd
  rw [step_bench hp ((State.benchWord_of_rest hrun).trans hbench)]
  exact runWord_of_reject hd

/-- `withFetchWord` holds the reset pin low. -/
theorem State.withFetchWord_pinUp (s : State) (nbits w : Nat) : (s.withFetchWord nbits w).pinUp = false := by
  have hhead := List.head?_dropWhile_not Input.rst s.inputs
  simp only [State.pinUp, State.withFetchWord]
  cases hx : (s.inputs.dropWhile Input.rst).head? with
  | none => rfl
  | some x =>
    rw [hx] at hhead
    exact hhead

theorem State.dropWhile_inputs {s : State} (h : s.pinUp = false) : s.inputs.dropWhile Input.rst = s.inputs := by
  cases hin : s.inputs with
  | nil => rfl
  | cons i rest => simp_all [State.pinUp]

/-- Settles O6: the placed word is the bench word of a step with the pin low. -/
theorem fetchWordIsExecutedNext : Obligations.FetchWordIsExecutedNext := by
  unfold Obligations.FetchWordIsExecutedNext
  intro s nbits w i hrun hd
  have hstep : step (s.withFetchWord nbits w) = exec i { s with bench := none, inputs := s.inputs.dropWhile Input.rst } := by
    rw [step_bench (s.withFetchWord_pinUp nbits w) (State.benchWord_of_rest hrun)]
    exact runWord_of_decode hd
  refine ⟨hstep, fun hp => ?_⟩
  rw [hstep, State.dropWhile_inputs hp]

end Sys2Proof.Machine
end

section
/-! PROOFS. The checksum engine (R121 to R127): its operations on the register, CRC.SPAN as their sequence, and the one fact about
the byte step from which its other two forms and the residue follow: its eight shifts consume eight bits. -/

namespace Sys2Proof.Machine

/-! ### The operations on `crc_reg` (R121 to R124) -/

theorem crcShifts_eq_iterate (n : Nat) (r : Word) : crcShifts n r = crcShift^[n] r := by
  induction n generalizing r with
  | zero => rfl
  | succ n ih => exact ih (crcShift r)

theorem crcFinal_eq_xor (r : Word) : crcFinal r = r ^^^ 0xFFFFFFFF := (BitVec.xor_allOnes (x := r)).symm

/-- On a specified register only the register's value is written. -/
theorem State.putCrc_of_specified {s : State} (h : s.crcInit = true) (w : Word) : s.putCrc w = { s with crcReg := w } := by
  rw [State.putCrc, ← h]

theorem exec_crcByte_of_specified {s : State} (h : s.crcInit = true) (d : Byte) :
    exec (.crcByte d) s = .next (s.putCrc (crcUpdate s.crcReg d)) := by
  simp only [exec, execCrcByte, h, if_true]

theorem exec_crcFin_of_specified {s : State} (h : s.crcInit = true) :
    exec .crcFin s = .next (s.returns (.word (crcFinal s.crcReg))) := by
  simp only [exec, execCrcFin, h, if_true]

/-- Settles O9: on a specified register each operation is one write, and the eight shifts are an iterate. -/
theorem checksumOperations : Obligations.ChecksumOperations := by
  unfold Obligations.ChecksumOperations
  refine fun s d => ⟨rfl, fun h => ⟨?_, ?_⟩⟩
  · rw [exec_crcByte_of_specified h, State.putCrc_of_specified h, crcUpdate, crcShifts_eq_iterate]
    rfl
  · rw [exec_crcFin_of_specified h, crcFinal_eq_xor]
    rfl

/-- CRC.BYTE of each byte in turn folds the byte step over them. -/
theorem runOps_crcBytes (b : List Byte) (rest : List Instr) (s : State) (w : Word) :
    runOps (b.map .crcByte ++ rest) (s.putCrc w) = runOps rest (s.putCrc (b.foldl crcUpdate w)) := by
  induction b generalizing w with
  | nil => rfl
  | cons d b ih => exact ih (crcUpdate w d)

/-- Settles O11: the bytes are folded from the initial register, and CRC.FIN returns the complement of what is left. -/
theorem spanIsItsExpansion : Obligations.SpanIsItsExpansion := by
  unfold Obligations.SpanIsItsExpansion
  refine fun b => ⟨⟨crcRegister b, fun s => ?_⟩, fun s => ?_, fun s => rfl⟩
  · rw [← crcFinal_eq_xor]
    rfl
  · exact runOps_crcBytes b [.crcFin] s Config.crcInitial

/-! ### Eight shifts consume eight bits (R122, R125) -/

/-- A single-bit step of R125 (b): the bit is added to bit 0 of the register before the shift. -/
def bitStep (r : Word) (b : Bool) : Word := (r >>> 1) ^^^ (if (r.getLsbD 0 ^^ b) then Config.crcPoly else 0)

/-- The single-bit steps of the first `n` bits of a byte, least significant bit first. -/
def bitSteps (d : Byte) (n : Nat) (r : Word) : Word := (List.range n).foldl (fun r j => bitStep r (d.getLsbD j)) r

theorem bitSteps_succ (d : Byte) (n : Nat) (r : Word) : bitSteps d (n + 1) r = bitStep (bitSteps d n r) (d.getLsbD n) := by
  simp only [bitSteps, List.range_succ, List.foldl_append, List.foldl_cons, List.foldl_nil]

/-- A shift of a sum consumes bit 0 of the addend, whose other bits move one place down. -/
theorem crcShift_xor (r x : Word) : crcShift (r ^^^ x) = bitStep r (x.getLsbD 0) ^^^ x >>> 1 := by
  simp only [crcShift, bitStep, BitVec.getLsbD_xor, BitVec.ushiftRight_xor_distrib]
  split
  · ac_rfl
  · simp

/-- `n` shifts of a sum consume the addend's lowest `n` bits, which are those of the byte `d`. -/
theorem crcShifts_xor {d : Byte} {x : Word} {n : Nat} (h : ∀ j < n, x.getLsbD j = d.getLsbD j) (r : Word) :
    crcShifts n (r ^^^ x) = bitSteps d n r ^^^ x >>> n := by
  induction n with
  | zero => rfl
  | succ n ih =>
    have hbit : (x >>> n).getLsbD 0 = d.getLsbD n := by
      rw [BitVec.getLsbD_ushiftRight, Nat.add_zero, h n n.lt_succ_self]
    calc crcShifts (n + 1) (r ^^^ x)
        = crcShift (crcShifts n (r ^^^ x)) := by
          simp only [crcShifts_eq_iterate, Function.iterate_succ_apply']
      _ = crcShift (bitSteps d n r ^^^ x >>> n) := by rw [ih fun j hj => h j (hj.trans n.lt_succ_self)]
      _ = bitSteps d (n + 1) r ^^^ x >>> (n + 1) := by
          rw [crcShift_xor, hbit, bitSteps_succ, BitVec.shiftRight_add]

theorem setWidth_ushiftRight_eight (d : Byte) : d.setWidth 32 >>> 8 = 0#32 := by
  rw [← BitVec.setWidth_ushiftRight (by decide), BitVec.ushiftRight_eq_zero le_rfl, BitVec.setWidth_zero]

/-- The bit-serial form of the byte step (R125 (b)). -/
theorem crcUpdate_eq_bitSteps (r : Word) (d : Byte) : crcUpdate r d = bitSteps d 8 r := by
  have hbits : ∀ j < 8, (d.setWidth 32).getLsbD j = d.getLsbD j := fun j hj => by
    rw [BitVec.getLsbD_setWidth, decide_eq_true (by omega), Bool.true_and]
  rw [crcUpdate, crcShifts_xor hbits, setWidth_ushiftRight_eight, BitVec.xor_zero]

/-- Eight shifts of a sum are the byte step with the addend's low byte; its upper bytes move down. -/
theorem crcShifts_eight_xor (r x : Word) : crcShifts 8 (r ^^^ x) = crcUpdate r (x.extractLsb' 0 8) ^^^ x >>> 8 := by
  have hbits : ∀ j < 8, x.getLsbD j = (x.extractLsb' 0 8).getLsbD j := fun j hj => by
    rw [BitVec.getLsbD_extractLsb', decide_eq_true hj, Bool.true_and, Nat.zero_add]
  rw [crcShifts_xor hbits, crcUpdate_eq_bitSteps]

/-- The table-driven form of the byte step (R125 (a)): the low byte selects the entry. -/
theorem crcUpdate_eq_table (r : Word) (d : Byte) :
    crcUpdate r d = (r >>> 8) ^^^ crcUpdate 0 ((r ^^^ d.setWidth 32).extractLsb' 0 8) := by
  calc crcUpdate r d
      = crcShifts 8 (0#32 ^^^ (r ^^^ d.setWidth 32)) := by rw [BitVec.zero_xor, crcUpdate]
    _ = crcUpdate 0 ((r ^^^ d.setWidth 32).extractLsb' 0 8) ^^^ (r ^^^ d.setWidth 32) >>> 8 := crcShifts_eight_xor _ _
    _ = (r >>> 8) ^^^ crcUpdate 0 ((r ^^^ d.setWidth 32).extractLsb' 0 8) := by
      rw [BitVec.ushiftRight_xor_distrib, setWidth_ushiftRight_eight, BitVec.xor_zero, BitVec.xor_comm]

/-- Settles O12: both forms say which bits the eight shifts consume. -/
theorem byteStepFormsAgree : Obligations.ByteStepFormsAgree := by
  unfold Obligations.ByteStepFormsAgree
  exact fun r d => ⟨crcUpdate_eq_table r d, crcUpdate_eq_bitSteps r d⟩

/-! ### The residue (R127 (a)) -/

/-- The first eight shifts of a sum are the byte step with the addend's low byte. -/
theorem crcShifts_byte (n : Nat) (r x : Word) :
    crcShifts (n + 8) (r ^^^ x) = crcShifts n (crcUpdate r (x.extractLsb' 0 8) ^^^ x >>> 8) :=
  congrArg (crcShifts n) (crcShifts_eight_xor r x)

/-- The bytes of a word are the low bytes of what shifts of eight leave of it. -/
theorem le32_eq_lowBytes (w : Word) :
    le32 w = [w, w >>> 8, w >>> 8 >>> 8, w >>> 8 >>> 8 >>> 8].map (BitVec.extractLsb' 0 8) := rfl

/-- A word taken in low byte first is added to the register whole, and shifted 32 times. -/
theorem foldl_crcUpdate_le32 (r w : Word) : (le32 w).foldl crcUpdate r = crcShifts 32 (r ^^^ w) := by
  have hzero : w >>> 8 >>> 8 >>> 8 >>> 8 = 0#32 := by
    simp only [← BitVec.shiftRight_add, BitVec.ushiftRight_eq_zero le_rfl]
  rw [crcShifts_byte, crcShifts_byte, crcShifts_byte, crcShifts_byte, hzero, BitVec.xor_zero,
    le32_eq_lowBytes]
  rfl

theorem crcShifts_allOnes : crcShifts 32 0xFFFFFFFF = 0xDEBB20E3 := by decide +kernel

/-- Settles O13: the register added to its own complement is all ones, whatever the message. -/
theorem checksumResidue : Obligations.ChecksumResidue := by
  unfold Obligations.ChecksumResidue
  intro m
  have hsum : crcRegister m ^^^ checksum m = 0xFFFFFFFF := by
    rw [checksum, crcFinal_eq_xor, ← BitVec.xor_assoc, BitVec.xor_self, BitVec.zero_xor]
  have hreg : crcRegister (m ++ le32 (checksum m)) = 0xDEBB20E3 := by
    rw [crcRegister, List.foldl_append, ← crcRegister, foldl_crcUpdate_le32, hsum, crcShifts_allOnes]
  rw [checksum, hreg]
  rfl

end Sys2Proof.Machine
end

section
/-! PROOFS. The frame encoders (R141 to R147): ENC.START, ENC.DATA and ENC.END put their frames in `tx_buf`, the reference reply
encoders return theirs, and the decoders read the fields of those back. -/

namespace Sys2Proof.Machine

/-! ### The host frames (R141 to R143) -/

/-- Settles O14: each encoder is `putFrame` of its frame. -/
theorem startAndEndEncoders : Obligations.StartAndEndEncoders := by
  unfold Obligations.StartAndEndEncoders
  refine fun s => ⟨⟨s.putFrame (startFrame s.plane s.slot), rfl, rfl, ?_⟩, ⟨s.putFrame (endFrameBytes s.slot), rfl, rfl, ?_⟩⟩
  · rw [s.putFrame_txBuf_toList (by simp), startFrame_length, startFrame_bytes, colorSlot_eq_ite]
  · rw [s.putFrame_txBuf_toList (by simp), endFrameBytes_length, endFrame_bytes]

/-- Any padding that reaches the end of the region pads alike (R85). -/
theorem fit_eq_take_padded {n k : Nat} {b : List Byte} (h : n ≤ b.length + k) :
    fit n b = (b ++ List.replicate k 0x00).take n := by
  have hpad : min (n - b.length) n = min (n - b.length) k := by omega
  rw [fit, zeros, List.take_append, List.take_append, List.take_replicate, List.take_replicate, hpad]

/-- ENC.DATA puts the frame of R85 in `tx_buf`. -/
theorem exec_encData (p : List Byte) (s : State) :
    exec (.encData p) s = .next (s.putFrame (dataFrame s.plane s.slot s.page s.sub p)) := by
  rw [← dataWrites_eq_dataFrame]
  rfl

/-- Settles O15: the writes of R142 give R85's frame, which fills `tx_buf`. -/
theorem dataEncoder : Obligations.DataEncoder := by
  unfold Obligations.DataEncoder
  intro s p hp
  have hpad : 52 ≤ p.length + (56 - p.length) := by omega
  have hfull : s.txBuf.toList.drop 64 = [] := List.drop_eq_nil_of_le (by simp)
  refine ⟨_, exec_encData p s, ?_, ?_⟩
  · simp [State.putFrame]
  · rw [s.putFrame_txBuf_toList (by simp), dataFrame_length, hfull, List.append_nil, dataFrame_eq_header, dataHeader,
      colorSlot_eq_ite, fit_eq_take_padded hpad]

/-! ### The reply frames (R144 to R147) -/

theorem startReplyFrame_bytes (c : Half) (st r : Byte) : startReplyFrame c st r =
    [0x5A, 0x5A, c.extractLsb' 0 8, c.extractLsb' 8 8, st, r, 0x5F, 0x5F, 0x5A, 0x5A] := rfl

theorem dataReplyFrame_bytes (c : Half) (p st : Byte) : dataReplyFrame c p st =
    [0x5A, 0x5A, c.extractLsb' 0 8, c.extractLsb' 8 8, p, st] := rfl

/-- In 8 bytes the marker stands where `slot16` would (R87, R146). -/
theorem endReplyFrame_eight_bytes (c sl : Half) : endReplyFrame .eight c sl =
    [0x5A, 0x5A, c.extractLsb' 0 8, c.extractLsb' 8 8, 0x5F, 0x5F, 0x5A, 0x5A] := rfl

theorem endReplyFrame_ten_bytes (c sl : Half) : endReplyFrame .ten c sl =
    [0x5A, 0x5A, c.extractLsb' 0 8, c.extractLsb' 8 8, sl.extractLsb' 0 8, sl.extractLsb' 8 8, 0x5F, 0x5F, 0x5A, 0x5A] := rfl

theorem exec_refSreply (c : Half) (st r : Byte) (s : State) :
    exec (.refSreply c st r) s = .next { s with result := .bytes (startReplyFrame c st r) } := rfl

theorem exec_refDreply (c : Half) (p st : Byte) (s : State) :
    exec (.refDreply c p st) s = .next { s with result := .bytes (dataReplyFrame c p st) } := rfl

theorem exec_refEreply (c sl : Half) (s : State) :
    exec (.refEreply c sl) s = .next { s with result := .bytes (endReplyFrame s.endLen c sl) } := rfl

/-- Settles O18: each reference encoder returns its frame, whose bytes are known for both lengths of the END_REPLY. -/
theorem referenceEncoders : Obligations.ReferenceEncoders := by
  unfold Obligations.ReferenceEncoders
  refine fun s c sl st r p => ⟨?_, ?_, fun hlen => ?_, fun hlen => ?_⟩
  · rw [exec_refSreply, startReplyFrame_bytes]
  · rw [exec_refDreply, dataReplyFrame_bytes]
  · rw [exec_refEreply, hlen, endReplyFrame_eight_bytes]
  · rw [exec_refEreply, hlen, endReplyFrame_ten_bytes]

/-- DEC.SREPLY of a START_REPLY returns its fields (R161). -/
theorem exec_decSreply_frame (c : Half) (st r : Byte) (s : State) : exec (.decSreply (startReplyFrame c st r)) s =
    .next { s with lastCmd16 := c, lastStatus := st, result := .startReply (.ok ⟨c, st, r⟩) } := by
  simp only [exec, execDecSreply, startReplyOf_frame]
  rfl

/-- DEC.DREPLY of a DATA_REPLY returns its fields (R162). -/
theorem exec_decDreply_frame (c : Half) (p st : Byte) (s : State) : exec (.decDreply (dataReplyFrame c p st)) s =
    .next { s with lastCmd16 := c, lastPage := p, lastStatus := st, result := .dataReply (.ok ⟨c, p, st⟩) } := by
  simp only [exec, execDecDreply, dataReplyOf_frame]
  rfl

/-- DEC.EREPLY of an END_REPLY returns `command16` and what the configured length keeps of `slot16` (R163). -/
theorem exec_decEreply_frame (c sl : Half) (s : State) : exec (.decEreply (endReplyFrame s.endLen c sl)) s =
    .next { s with
      lastCmd16 := c, lastSlot16 := slotKept s.endLen sl, result := .endReply (.ok ⟨c, slotKept s.endLen sl⟩) } := by
  simp only [exec, execDecEreply, endReplyOf_frame]
  rfl

/-- Settles O22: each reference encoder returns a frame, and the frame's decoder reads its fields. -/
theorem replyRoundTrip : Obligations.ReplyRoundTrip := by
  unfold Obligations.ReplyRoundTrip
  refine fun s c sl st r p => ⟨⟨_, exec_refSreply c st r s, exec_decSreply_frame c st r s⟩,
    ⟨_, exec_refDreply c p st s, exec_decDreply_frame c p st s⟩,
    ⟨_, exec_refEreply c sl s, fun hlen => ?_, fun hlen => ?_⟩⟩
  · rw [exec_decEreply_frame, hlen, slotKept]
  · rw [exec_decEreply_frame, hlen, slotKept]

end Sys2Proof.Machine
end

section
/-! PROOFS. The reply decoders and status classifiers (R160 to R165): the checks of `decode_common` read off a frame's bytes, the
three decoders on every byte sequence, and the classes of a status byte by its number. -/

namespace Sys2Proof.Machine

/-! ### What the checks of `decode_common` read (R12, R160) -/

theorem u16le_eq_iff {b : List Byte} {o : Nat} (h : o + 2 ≤ b.length) (v : Half) :
    u16le b o = v ↔ (b.drop o).take 2 = le16 v := by
  have hbytes : le16 (u16le b o) = (b.drop o).take 2 := (le16_u16le b o).trans (map_byteAt_range h)
  rw [← hbytes]
  exact ⟨congrArg le16, le16_injective⟩

theorem u32le_eq_iff {b : List Byte} {o : Nat} (h : o + 4 ≤ b.length) (v : Word) :
    u32le b o = v ↔ (b.drop o).take 4 = le32 v := by
  have hbytes : le32 (u32le b o) = (b.drop o).take 4 := (le32_u32le b o).trans (map_byteAt_range h)
  rw [← hbytes]
  exact ⟨congrArg le32, le32_injective⟩

/-- The magic stands in the first two bytes. -/
theorem devMagic_iff {b : List Byte} (h : 2 ≤ b.length) : u16le b 0 = Config.devMagic ↔ b.take 2 = [0x5A, 0x5A] :=
  u16le_eq_iff (by omega) Config.devMagic

/-- The end-marker stands in the last four bytes. -/
theorem devEnd_iff {b : List Byte} (h : 4 ≤ b.length) :
    u32le b (b.length - 4) = Config.devEnd ↔ b.drop (b.length - 4) = [0x5F, 0x5F, 0x5A, 0x5A] := by
  have hlast : (b.drop (b.length - 4)).take 4 = b.drop (b.length - 4) :=
    List.take_of_length_le (by rw [List.length_drop]; omega)
  rw [u32le_eq_iff (by omega), hlast]
  rfl

theorem decodeCommon_length_err {b : List Byte} {n : Nat} {hasMarker : Bool} (hl : b.length ≠ n) :
    decodeCommon b n hasMarker = .err .length := if_pos hl

theorem decodeCommon_magic_err {b : List Byte} {n : Nat} {hasMarker : Bool} (hn : 2 ≤ n) (hl : b.length = n)
    (hm : b.take 2 ≠ [0x5A, 0x5A]) : decodeCommon b n hasMarker = .err .magic := by
  rw [decodeCommon, if_neg (not_not.mpr hl), if_pos (mt (devMagic_iff (by omega)).mp hm)]

theorem decodeCommon_endMarker_err {b : List Byte} {n : Nat} (hn : 4 ≤ n) (hl : b.length = n) (hm : b.take 2 = [0x5A, 0x5A])
    (he : b.drop (n - 4) ≠ [0x5F, 0x5F, 0x5A, 0x5A]) : decodeCommon b n true = .err .endMarker := by
  subst hl
  rw [decodeCommon, if_neg (not_not.mpr rfl), if_neg (not_not.mpr ((devMagic_iff (by omega)).mpr hm)),
    if_pos ⟨rfl, mt (devEnd_iff hn).mp he⟩]

/-! ### The decoders (R161 to R163) -/

/-- A failed check is DEC.SREPLY's result, and nothing else is written. -/
theorem exec_decSreply_err {b : List Byte} {e : DecodeErr} (h : decodeCommon b Config.lenStartReply true = .err e)
    (s : State) : exec (.decSreply b) s = .next { s with result := .startReply (.err e) } := by
  have hres : startReplyOf b = .err e := by rw [startReplyOf, h]
  simp only [exec, execDecSreply, hres, State.noteStartReply_err]
  rfl

theorem exec_decDreply_err {b : List Byte} {e : DecodeErr} (h : decodeCommon b Config.lenDataReply false = .err e)
    (s : State) : exec (.decDreply b) s = .next { s with result := .dataReply (.err e) } := by
  have hres : dataReplyOf b = .err e := by rw [dataReplyOf, h]
  simp only [exec, execDecDreply, hres, State.noteDataReply_err]
  rfl

theorem exec_decEreply_err {b : List Byte} {e : DecodeErr} {s : State} (h : decodeCommon b s.endLen.bytes true = .err e) :
    exec (.decEreply b) s = .next { s with result := .endReply (.err e) } := by
  have hres : endReplyOf s.endLen b = .err e := by rw [endReplyOf, h]
  simp only [exec, execDecEreply, hres, State.noteEndReply_err]
  rfl

/-- Two bytes are the packing of the half they make, high byte first (R12). -/
theorem le16_append (hi lo : Byte) : le16 (hi ++ lo) = [lo, hi] := by
  rw [le16, BitVec.extractLsb'_append_eq_right, BitVec.extractLsb'_append_eq_left]

theorem startReplyFrame_append (c1 c0 st r : Byte) :
    startReplyFrame (c1 ++ c0) st r = [0x5A, 0x5A, c0, c1, st, r, 0x5F, 0x5F, 0x5A, 0x5A] := by
  rw [startReplyFrame, le16_append]
  rfl

theorem dataReplyFrame_append (c1 c0 p st : Byte) : dataReplyFrame (c1 ++ c0) p st = [0x5A, 0x5A, c0, c1, p, st] := by
  rw [dataReplyFrame, le16_append]
  rfl

/-- In 8 bytes no byte of `slot16` is left (R87). -/
theorem endReplyFrame_eight_append (c1 c0 : Byte) (sl : Half) :
    endReplyFrame .eight (c1 ++ c0) sl = [0x5A, 0x5A, c0, c1, 0x5F, 0x5F, 0x5A, 0x5A] := by
  rw [endReplyFrame, le16_append]
  rfl

theorem endReplyFrame_ten_append (c1 c0 h l : Byte) :
    endReplyFrame .ten (c1 ++ c0) (h ++ l) = [0x5A, 0x5A, c0, c1, l, h, 0x5F, 0x5F, 0x5A, 0x5A] := by
  rw [endReplyFrame, le16_append, le16_append]
  rfl

/-- Settles O19: a failing check is one of `decode_common`'s three, and a sequence that passes them is a START_REPLY. -/
theorem startReplyDecoder : Obligations.StartReplyDecoder := by
  unfold Obligations.StartReplyDecoder
  refine fun s b => ⟨fun hl => ?length, fun hl hm => ?magic, fun hl hm he => ?marker, fun c0 c1 st r hb => ?ok⟩
  case length => exact exec_decSreply_err (decodeCommon_length_err hl) s
  case magic => exact exec_decSreply_err (decodeCommon_magic_err (by decide) hl hm) s
  case marker => exact exec_decSreply_err (decodeCommon_endMarker_err (by decide) hl hm he) s
  case ok => rw [hb, ← startReplyFrame_append, exec_decSreply_frame]

/-- Settles O20: two checks, no marker; the page of a DATA_REPLY is a field like the others. -/
theorem dataReplyDecoder : Obligations.DataReplyDecoder := by
  unfold Obligations.DataReplyDecoder
  refine fun s b => ⟨fun hl => ?length, fun hl hm => ?magic, fun c0 c1 p st hb => ?ok⟩
  case length => exact exec_decDreply_err (decodeCommon_length_err hl) s
  case magic => exact exec_decDreply_err (decodeCommon_magic_err (by decide) hl hm) s
  case ok => rw [hb, ← dataReplyFrame_append, exec_decDreply_frame]

theorem eight_le_endLen_bytes (n : Config.EndLen) : 8 ≤ n.bytes := by cases n <;> decide

/-- Settles O21: the checks are those of the configured length, and in 8 bytes `slot16` is the marker's low half. -/
theorem endReplyDecoder : Obligations.EndReplyDecoder := by
  unfold Obligations.EndReplyDecoder
  intro s b
  have hbytes := eight_le_endLen_bytes s.endLen
  refine ⟨fun hl => ?length, fun hl hm => ?magic, fun hl hm he => ?marker, fun c0 c1 hn hb => ?eight,
    fun c0 c1 l h hn hb => ?ten⟩
  case length => exact exec_decEreply_err (decodeCommon_length_err hl)
  case magic => exact exec_decEreply_err (decodeCommon_magic_err (by omega) hl hm)
  case marker => exact exec_decEreply_err (decodeCommon_endMarker_err (by omega) hl hm he)
  case eight => rw [hb, ← endReplyFrame_eight_append c1 c0 0, ← hn, exec_decEreply_frame, hn, slotKept]
  case ten => rw [hb, ← endReplyFrame_ten_append, ← hn, exec_decEreply_frame, hn, slotKept]

/-! ### The status classifiers (R164, R165) -/

theorem exec_clsStart (st : Byte) (s : State) :
    exec (.clsStart st) s = .next { s with result := .startClass (startClassOf st) } := rfl

theorem exec_clsData (st : Byte) (s : State) :
    exec (.clsData st) s = .next { s with result := .dataClass (dataClassOf st) } := rfl

theorem startClassOf_unrecognized {st : Byte} (hok : st ≠ 0x01) (hbusy : st ≠ 0x02) (herror : st ≠ 0xFF) :
    startClassOf st = .unrecognized st := by
  rw [startClassOf, if_neg hok, if_neg hbusy, if_neg herror]

/-- The high nibble names the range of sixteen a status stands in. -/
theorem highNibble_eq_iff (st : Byte) (k : BitVec 4) : st.extractLsb' 4 4 = k ↔ st.toNat / 16 = k.toNat := by
  have hst := st.isLt
  rw [← BitVec.toNat_inj, BitVec.extractLsb'_toNat, Nat.shiftRight_eq_div_pow]
  omega

theorem lowNibble_toNat (st : Byte) : (st.extractLsb' 0 4).toNat = st.toNat % 16 := by
  rw [BitVec.extractLsb'_toNat, Nat.shiftRight_zero]

/-- The class of a data-reply status by its number (R95, R165). -/
theorem dataClassOf_eq_toNat (st : Byte) : dataClassOf st =
    if st.toNat = 0 then .ok
    else if st.toNat / 16 = 1 then .crcFamily st
    else if st.toNat / 16 = 2 then .missing (st.extractLsb' 0 4)
    else if st.toNat = 0x30 then .timeout
    else .unknown st := by
  have hok : st = 0x00 ↔ st.toNat = 0 := BitVec.toNat_inj.symm
  have htimeout : st = 0x30 ↔ st.toNat = 0x30 := BitVec.toNat_inj.symm
  simp only [dataClassOf, hok, htimeout, highNibble_eq_iff]
  rfl

theorem dataClassOf_crcFamily {st : Byte} (h : st.toNat / 16 = 1) : dataClassOf st = .crcFamily st := by
  rw [dataClassOf_eq_toNat, if_neg (by omega), if_pos h]

theorem dataClassOf_missing {st : Byte} (h : st.toNat / 16 = 2) : dataClassOf st = .missing (st.extractLsb' 0 4) := by
  rw [dataClassOf_eq_toNat, if_neg (by omega), if_neg (by omega), if_pos h]

/-- A status of no other class is unknown: below 0x10 but not zero, or above 0x30. -/
theorem dataClassOf_unknown {st : Byte} (hok : st.toNat ≠ 0) (hrange : st.toNat < 0x10 ∨ 0x30 < st.toNat) :
    dataClassOf st = .unknown st := by
  rw [dataClassOf_eq_toNat, if_neg hok, if_neg (by omega), if_neg (by omega), if_neg (by omega)]

/-- Settles O23: both classes are read off the model's tests, those of a data-reply by ranges of sixteen. -/
theorem statusClassifiers : Obligations.StatusClassifiers := by
  unfold Obligations.StatusClassifiers
  refine fun s st => ⟨⟨_, exec_clsStart st s, ?ok, ?busy, ?error, startClassOf_unrecognized⟩,
    ⟨_, exec_clsData st s, fun h => ?acknowledged, fun h h' => ?low, fun h h' => ?crcFamily, fun h h' => ?missing,
      fun h => ?timeout, fun h => ?high⟩⟩
  case ok | busy | error =>
    rintro rfl
    rfl
  case acknowledged => rw [dataClassOf_eq_toNat, if_pos h]
  case low => exact dataClassOf_unknown (by omega) (by omega)
  case crcFamily => exact dataClassOf_crcFamily (by omega)
  case missing =>
    refine ⟨_, dataClassOf_missing (by omega), ?_⟩
    rw [lowNibble_toNat]
    omega
  case timeout =>
    rw [dataClassOf_eq_toNat, if_neg (by omega), if_neg (by omega), if_neg (by omega), if_pos h]
  case high => exact dataClassOf_unknown (by omega) (by omega)

end Sys2Proof.Machine
end

section
/-! PROOFS. The page segmenter (R191 to R194): SEG.PAGE loads the page's image bytes and their padding, SEG.SUB cuts the page
buffer, and the cuts of the 61 pages put together are the plane. -/

namespace Sys2Proof.Machine

/-! ### A page's bytes and their padding (R52, R191) -/

theorem pageOk_eq_true {p : Page} (hlo : 1 ≤ p.toNat) (hhi : p.toNat ≤ 61) : pageOk p = true := by
  simp only [pageOk, Config.pagesPerColor, Bool.and_eq_true, decide_eq_true_eq]
  exact ⟨hlo, hhi⟩

theorem subOk_eq_true {k : Sub} (hlo : 1 ≤ k.toNat) (hhi : k.toNat ≤ 5) : subOk k = true := by
  simp only [subOk, Bool.and_eq_true, decide_eq_true_eq]
  exact ⟨hlo, hhi⟩

theorem exec_segPage {p : Page} (hp : pageOk p = true) (q : Plane) (s : State) :
    exec (.segPage q p) s = .next (s.loadPage q p) := if_pos hp

theorem exec_segSub {k : Sub} (hk : subOk k = true) (s : State) :
    exec (.segSub k) s = .next (s.returns (.bytes (s.payload k))) := if_pos hk

theorem pageBytes_eq_ite (p : Page) : pageBytes p = if p.toNat ≤ 60 then 248 else 120 := rfl

theorem pageBytes_le (p : Page) : pageBytes p ≤ 248 := by
  rw [pageBytes_eq_ite]
  split <;> omega

@[simp] theorem pageData_length (m : Memory) (q : Plane) (p : Page) : (pageData m q p).length = pageBytes p := by
  rw [pageData, List.length_map, List.length_range]

theorem pageData_getElem? (m : Memory) (q : Plane) (p : Page) {i : Nat} (hi : i < pageBytes p) :
    (pageData m q p)[i]? = some (imgRead m q (pageAddr p i)) := by
  rw [pageData, List.getElem?_map, List.getElem?_range hi, Option.map_some]

/-- A page's meaningful bytes lie in its plane: 60 pages of 248 bytes, then 120, are 15000 (R52). -/
theorem pageAddr_lt {p : Page} (hp : p.toNat ≤ 61) {i : Nat} (hi : i < pageBytes p) : pageAddr p i < 15000 := by
  rw [pageBytes_eq_ite] at hi
  rw [pageAddr, Config.dataPerPage]
  split at hi <;> omega

theorem pageImage_eq_append (m : Memory) (q : Plane) (p : Page) :
    pageImage m q p = pageData m q p ++ zeros (248 - pageBytes p) := by
  rw [pageImage, fit_of_length_le (by simp [pageBytes_le]), pageData_length]

theorem pageImage_length (m : Memory) (q : Plane) (p : Page) : (pageImage m q p).length = 248 := fit_length _ _

theorem pageImage_take (m : Memory) (q : Plane) (p : Page) : (pageImage m q p).take (pageBytes p) = pageData m q p := by
  rw [pageImage_eq_append, List.take_left' (pageData_length m q p)]

theorem pageImage_getElem?_data (m : Memory) (q : Plane) (p : Page) {i : Nat} (hi : i < pageBytes p) :
    (pageImage m q p)[i]? = some (imgRead m q (pageAddr p i)) := by
  rw [pageImage_eq_append, List.getElem?_append_left (by simpa using hi), pageData_getElem? m q p hi]

theorem pageImage_getElem?_padding (m : Memory) (q : Plane) (p : Page) {i : Nat} (hi : pageBytes p ≤ i) (h : i < 248) :
    (pageImage m q p)[i]? = some 0x00 := by
  rw [pageImage_eq_append, List.getElem?_append_right (by simpa using hi), pageData_length, zeros,
    List.getElem?_replicate_of_lt (by omega)]

theorem loadPage_pageBuf_toList (s : State) (q : Plane) (p : Page) :
    (s.loadPage q p).pageBuf.toList = pageImage s.img q p := bufOf_toList _ _

/-- The eight bits of `page_len` hold the length of every page. -/
theorem loadPage_pageLen_toNat (s : State) (q : Plane) (p : Page) : (s.loadPage q p).pageLen.toNat = pageBytes p := by
  have := pageBytes_le p
  rw [State.loadPage_pageLen, BitVec.toNat_ofNat, Nat.mod_eq_of_lt (by omega)]

/-- SEG.PAGE writes the page registers and the checksum register, which it leaves before its complement (R191, R124). -/
theorem loadPage_frame (s : State) (q : Plane) (p : Page) :
    s.loadPage q p = { s with
      pageBuf := (s.loadPage q p).pageBuf, pageLen := (s.loadPage q p).pageLen, pageCrc := (s.loadPage q p).pageCrc
      crcReg := ~~~ (s.loadPage q p).pageCrc, crcInit := true } := by
  rw [State.loadPage_pageCrc, checksum, crcFinal, BitVec.not_not]
  rfl

/-- Settles O25: SEG.PAGE is `loadPage`, whose buffer is the page's image bytes and then zeros. -/
theorem pageSegmenter : Obligations.PageSegmenter := by
  unfold Obligations.PageSegmenter
  intro s q p hlo hhi
  refine ⟨s.loadPage q p, exec_segPage (pageOk_eq_true hlo hhi) q s, loadPage_frame s q p, ?_⟩
  rw [loadPage_pageLen_toNat, loadPage_pageBuf_toList, pageImage_take]
  exact ⟨pageBytes_eq_ite p, fun i hi => ⟨pageAddr_lt hhi hi, pageImage_getElem?_data s.img q p hi⟩,
    fun i => pageImage_getElem?_padding s.img q p, rfl⟩

/-! ### The cuts of a page buffer (R192) -/

theorem subPayload_of_le {k : Sub} (hk : k.toNat ≤ 4) (buf : List Byte) (crc : Word) :
    subPayload buf crc k = (buf.drop ((k.toNat - 1) * 54)).take 54 := if_pos hk

theorem subPayload_last {k : Sub} (hk : k.toNat = 5) (buf : List Byte) (crc : Word) :
    subPayload buf crc k = (buf.drop 216).take 32 ++ le32 crc := if_neg (by omega)

/-- Settles O26: SEG.SUB returns the cut that `subPayload` makes of the 248 bytes of the page buffer. -/
theorem subFrameSegmenter : Obligations.SubFrameSegmenter := by
  unfold Obligations.SubFrameSegmenter
  intro s k hlo hhi
  have hbuf : s.pageBuf.toList.length = 248 := s.pageBuf.length_toList
  refine ⟨s.payload k, exec_segSub (subOk_eq_true hlo hhi) s, fun hk => ?_, fun hk => ?_⟩
  · rw [State.payload, subPayload_of_le hk]
    refine ⟨rfl, ?_⟩
    rw [List.length_take, List.length_drop, hbuf]
    omega
  · have hlast : (s.pageBuf.toList.drop 216).length = 32 := by rw [List.length_drop, hbuf]
    rw [State.payload, subPayload_last hk, List.take_of_length_le hlast.le, List.length_append, hlast, le32_length]
    exact ⟨rfl, rfl⟩

/-- Four cuts of 54 bytes and the 32 data bytes of the fifth are a page buffer (R192, R194). -/
theorem subPayloads_append {buf : List Byte} (h : buf.length = 248) (crc : Word) :
    subPayload buf crc 1 ++ subPayload buf crc 2 ++ subPayload buf crc 3 ++ subPayload buf crc 4 ++
      (subPayload buf crc 5).take 32 = buf := by
  have hlast : (subPayload buf crc 5).take 32 = (buf.drop 216).take 32 := by
    rw [subPayload_last rfl, List.take_left' (by simp [h])]
  calc _ = buf.take 54 ++ (buf.drop 54).take 54 ++ (buf.drop 108).take 54 ++ (buf.drop 162).take 54 ++
        (buf.drop 216).take 32 := by rw [hlast]; rfl
    _ = buf.take 248 := by rw [← List.take_add, ← List.take_add, ← List.take_add, ← List.take_add]
    _ = buf := List.take_of_length_le h.le

/-! ### The plane from its pages (R194) -/

/-- SEG.PAGE and then SEG.SUB return the cut of the padded page. -/
theorem bytesOf_segPage_segSub {p : Page} {k : Sub} (hp : pageOk p = true) (hk : subOk k = true) (q : Plane) (s : State) :
    bytesOf (runOps [.segPage q p, .segSub k] s) =
      subPayload (pageImage s.img q p) (checksum (pageData s.img q p)) k := by
  simp only [runOps, exec_segPage hp, exec_segSub hk, bytesOf, State.returns, State.payload, loadPage_pageBuf_toList,
    State.loadPage_pageCrc]

/-- What the five SEG.SUB of a page return, without the checksum, is the padded page. -/
theorem bytesOf_cuts_append {p : Page} (hp : pageOk p = true) (q : Plane) (s : State) :
    bytesOf (runOps [.segPage q p, .segSub 1] s) ++ bytesOf (runOps [.segPage q p, .segSub 2] s) ++
      bytesOf (runOps [.segPage q p, .segSub 3] s) ++ bytesOf (runOps [.segPage q p, .segSub 4] s) ++
      (bytesOf (runOps [.segPage q p, .segSub 5] s)).take 32 = pageImage s.img q p := by
  simp only [bytesOf_segPage_segSub hp (k := 1) rfl, bytesOf_segPage_segSub hp (k := 2) rfl,
    bytesOf_segPage_segSub hp (k := 3) rfl, bytesOf_segPage_segSub hp (k := 4) rfl, bytesOf_segPage_segSub hp (k := 5) rfl]
  exact subPayloads_append (pageImage_length _ _ _) _

/-- Pages 1 to 60 have no padding (R191). -/
theorem pageImage_eq_pageData {p : Page} (hp : p.toNat ≤ 60) (m : Memory) (q : Plane) : pageImage m q p = pageData m q p :=
  fit_of_length (by rw [pageData_length, pageBytes_eq_ite, if_pos hp])

theorem pageNumber_toNat {p : Nat} (hp : p ≤ 61) : (BitVec.ofNat 6 p).toNat = p := Nat.mod_eq_of_lt (by omega)

theorem pageData_full {i : Nat} (hi : i < 60) (m : Memory) (q : Plane) :
    pageData m q (BitVec.ofNat 6 (i + 1)) = (List.range 248).map fun j => imgRead m q (i * 248 + j) := by
  simp only [pageData, pageBytes_eq_ite, pageAddr, pageNumber_toNat (p := i + 1) (by omega), if_pos (Nat.succ_le_of_lt hi),
    Nat.add_sub_cancel, Config.dataPerPage]

/-- Blocks of one length, put together, are one range. -/
theorem flatMap_range_blocks {α : Type} (f : Nat → α) (w n : Nat) :
    ((List.range n).flatMap fun i => (List.range w).map fun j => f (i * w + j)) = (List.range (n * w)).map f := by
  induction n with
  | zero => rw [Nat.zero_mul]; rfl
  | succ n ih =>
    rw [List.range_succ, List.flatMap_append, ih, List.flatMap_singleton, Nat.succ_mul, List.range_add, List.map_append,
      List.map_map]
    rfl

/-- The pages' meaningful bytes in order are the plane's bytes (R52). -/
theorem pageData_append_eq_plane (m : Memory) (q : Plane) :
    ((List.range 60).flatMap fun i => pageData m q (BitVec.ofNat 6 (i + 1))) ++ pageData m q 61 =
      (List.range 15000).map (imgRead m q) := by
  calc _ = (List.range (60 * 248)).map (imgRead m q) ++ (List.range 120).map fun j => imgRead m q (60 * 248 + j) := by
        rw [List.flatMap_congr fun i hi => pageData_full (List.mem_range.mp hi) m q, flatMap_range_blocks]
        rfl
    _ = (List.range (60 * 248 + 120)).map (imgRead m q) := by
        rw [List.range_add, List.map_append, List.map_map]
        rfl

/-- Settles O28: the cuts of a page are its padded bytes, and these without their padding are the plane's. -/
theorem pagesReassembleThePlane : Obligations.PagesReassembleThePlane := by
  unfold Obligations.PagesReassembleThePlane
  intro s q payload page
  have hpage {p : Nat} (hlo : 1 ≤ p) (hhi : p ≤ 61) : page p = pageImage s.img q (BitVec.ofNat 6 p) :=
    bytesOf_cuts_append (pageOk_eq_true (by rwa [pageNumber_toNat hhi]) (by rwa [pageNumber_toNat hhi])) q s
  have hfull : ∀ i ∈ List.range 60, page (i + 1) = pageData s.img q (BitVec.ofNat 6 (i + 1)) := fun i hi => by
    have hle : i + 1 ≤ 60 := List.mem_range.mp hi
    rw [hpage (by omega) (by omega), pageImage_eq_pageData (by rwa [pageNumber_toNat (by omega)])]
  have hlast : (page 61).take 120 = pageData s.img q 61 := by
    rw [hpage (by omega) le_rfl]
    exact pageImage_take s.img q 61
  rw [List.flatMap_congr hfull, hlast, pageData_append_eq_plane]

end Sys2Proof.Machine
end

section
/-! PROOFS. The host's SEND (R210, R223), the operation a quiet step performs (R213 to R215), the phases of R222, and the ways out of
a session (R218, R219, R264). -/

namespace Sys2Proof.Machine

/-! ### SEND (R210, R223) -/

theorem slotOf_eq_masked (o : Byte) : slotOf o = (o &&& 0x0F).setWidth 4 := by
  ext i hi
  interval_cases i
  all_goals simp [slotOf]

theorem exec_send_of_busy {s : State} (h : s.busy = true) (o : Byte) : exec (.send o) s = .next s := by
  simp [exec, execSend, h]

theorem exec_send_of_free {s : State} (h : s.busy = false) (o : Byte) :
    exec (.send o) s = .next ((s.openSession o).enterPlane 0) := by
  simp [exec, execSend, h]

/-- Settles O29: outside a session the slot is masked, and the rest of the operand is not looked at. -/
theorem sendOpensASession : Obligations.SendOpensASession := by
  unfold Obligations.SendOpensASession
  intro s o hf
  have hb : s.busy = false := by
    obtain hf | hf | hf := hf
    all_goals simp [State.busy, hf]
  have hopen (o' : Byte) (ho : o' &&& 0x0F = o &&& 0x0F) : s.openSession o' = s.openSession o := by
    simp only [State.openSession, slotOf_eq_masked, ho]
  refine ⟨?_, fun o' ho => by rw [exec_send_of_free hb, exec_send_of_free hb, hopen o' ho]⟩
  rw [exec_send_of_free hb, ← slotOf_eq_masked]
  rfl

/-- Settles O30: a session runs, so neither the operand nor a bench word is looked at. -/
theorem sendWhileBusyDoesNothing : Obligations.SendWhileBusyDoesNothing := by
  unfold Obligations.SendWhileBusyDoesNothing
  intro s o hf
  have hb : s.busy = true := by
    obtain hf | hf | hf := hf
    all_goals simp [State.busy, hf]
  refine ⟨exec_send_of_busy hb o, fun rest hin => ?_⟩
  have hpin : s.pinUp = false := by simp [State.pinUp, hin]
  have hcmd : s.command = some o := by simp [State.command, hin]
  rw [step_command hpin (State.benchWord_of_running (State.running_of_busy hb)) hcmd,
    exec_send_of_busy (s := s.nextInput) hb, State.nextInput, hin, List.tail_cons]

/-! ### The operation a quiet step performs (R213 to R215; log 1) -/

/-- At an operation of the table the phase is that operation, and after it the sequencer's place moves on. -/
theorem advance_nextOp {s : State} {i : Instr} (h : s.nextOp = some i) :
    ∃ p, advance s = onNext (exec i s) fun u => { u with phase := p, sub := if s.phase = .segPage then 1 else u.sub } := by
  unfold State.nextOp at h
  unfold advance
  cases hph : s.phase with
  | segPage => simp only [hph] at h; cases h; exact ⟨.segSub, rfl⟩
  | segSub => simp only [hph] at h; cases h; exact ⟨_, rfl⟩
  | enc p => cases hb : s.body <;> simp only [hph, hb] at h <;> cases h <;> exact ⟨.tx, rfl⟩
  | dec => cases hb : s.body <;> simp only [hph, hb] at h <;> cases h <;> exact ⟨_, rfl⟩
  | cls st =>
    cases hb : s.body with
    | start | page => simp only [hph, hb] at h; cases h; exact ⟨_, rfl⟩
    | finish => simp only [hph, hb] at h; cases h
  | idle | tx | rx | backoff | judge | ret => simp only [hph] at h; cases h

theorem running_of_nextOp {s : State} {i : Instr} (h : s.nextOp = some i) : s.running = true := by
  refine State.running_of_phase fun hph => ?_
  simp only [State.nextOp, hph] at h
  cases h

/-- Settles O8: the quiet step is the phase, the phase is the operation, and a phase never refuses. -/
theorem stepRunsTheSequencedOperation : Obligations.StepRunsTheSequencedOperation := by
  unfold Obligations.StepRunsTheSequencedOperation
  intro s i hin hop
  obtain ⟨p, hadv⟩ := advance_nextOp hop
  rw [step_quiet hin (State.benchWord_of_running (running_of_nextOp hop))]
  refine ⟨fun u hu => ⟨p, by rw [hadv, hu, onNext_next]⟩, fun r hr => by rw [hadv, hr, onNext_fault], fun r hr => ?_⟩
  exact advance_not_refused s r (by rw [hadv, hr, onNext_refused])

/-! ### The phases of R222 -/

theorem firstPhase_group (b : Body) : PhaseGroup.judge.leadsTo (firstPhase b).group = true := by cases b <;> rfl

theorem State.afterTx_group (s : State) (a : TxAnswer) : PhaseGroup.tx.leadsTo (s.afterTx a).phase.group = true := by
  cases a with
  | err => rfl
  | ok => simp only [State.afterTx]; split <;> rfl

theorem State.afterRx_group (s : State) (a : RxAnswer) : PhaseGroup.rx.leadsTo (s.afterRx a).phase.group = true := by
  cases a <;> rfl

theorem afterDecode_group (n : Config.EndLen) (b : Body) (r : List Byte) :
    PhaseGroup.rx.leadsTo (afterDecode n b r).group = true := by
  cases b with
  | start => cases h : startReplyOf r <;> simp [afterDecode, h, Phase.group, PhaseGroup.leadsTo]
  | page => cases h : dataReplyOf r <;> simp [afterDecode, h, Phase.group, PhaseGroup.leadsTo]
  | finish => cases h : endReplyOf n r <;> simp [afterDecode, h, Phase.group, PhaseGroup.leadsTo]

theorem afterClass_group (b : Body) (st : Byte) : PhaseGroup.rx.leadsTo (afterClass b st).group = true := by
  cases b with
  | start => simp only [afterClass]; split <;> rfl
  | page | finish => rfl

/-- Every phase leads where R222 lets it, with the arrow of log 27. -/
theorem advance_group {s t : State} (h : advance s = .next t) : s.phase.group.leadsTo t.phase.group = true := by
  cases hph : s.phase with
  | idle => rw [advance_idle hph] at h; cases h; rw [hph]; rfl
  | segPage =>
    cases hp : pageOk s.page with
    | true => rw [advance_segPage hph hp] at h; cases h; rfl
    | false => rw [advance_segPage_fault hph hp] at h; cases h
  | segSub =>
    cases hk : subOk s.sub with
    | true => rw [advance_segSub hph hk] at h; cases h; rfl
    | false => rw [advance_segSub_fault hph hk] at h; cases h
  | enc p =>
    obtain ⟨f, hf, -⟩ := encodeOf_next s.body p s
    simp only [advance, hph, hf, onNext_next] at h
    cases h
    rfl
  | tx =>
    rw [advance_tx hph] at h
    cases h
    cases hans : s.txAns with
    | nil => rw [State.transmit_nil hans, hph]; rfl
    | cons a rest => rw [State.transmit_cons hans]; exact State.afterTx_group _ a
  | rx =>
    rw [advance_rx hph] at h
    cases h
    cases hans : s.rxAns with
    | nil => rw [State.request_nil hans, hph]; rfl
    | cons a rest => rw [State.request_cons hans]; exact State.afterRx_group _ _
  | dec => obtain ⟨c, st, p, sl, r, hd⟩ := advance_dec hph; rw [hd] at h; cases h; exact afterDecode_group _ _ _
  | cls st => obtain ⟨c, hc⟩ := advance_cls hph; rw [hc] at h; cases h; exact afterClass_group _ _
  | backoff =>
    obtain rfl | ⟨n, -, rfl⟩ := advance_backoff_cases hph h
    · rw [hph]; rfl
    · rfl
  | judge r =>
    rw [advance_judge hph] at h
    cases h
    obtain hj | ⟨v, hj⟩ | hj := s.judge_cases r <;> rw [hj]
    · rfl
    · rfl
    · exact firstPhase_group s.body
  | ret r =>
    rw [advance_ret hph] at h
    cases h
    obtain hf | ⟨p, hf⟩ | ⟨q, hf⟩ | hf | hf | ⟨fs, q, p, c, hf⟩ := s.finishStep_cases r <;> rw [hf] <;> rfl

/-- Settles O53: a quiet step is one phase. -/
theorem phasesFollowTheTable : Obligations.PhasesFollowTheTable := by
  unfold Obligations.PhasesFollowTheTable
  rintro s t - ⟨hin, hw⟩ h
  rw [step_quiet hin hw] at h
  exact advance_group h

/-! ### Out of a session (R218, R219, R264) -/

theorem fsm_of_busy_eq {s t : State} (h : t.fsm = s.fsm) : t.busy = s.busy := by simp [State.busy, h]

/-- The one failure of RUN: the report names the step, its plane and page. -/
theorem State.runFail_eq {s : State} (hstep : stepOf s.fsm = some s.body) (c : Cause) : ∃ fs q p,
    s.runFail c = s.fail fs q p c ∧
    ((s.fsm = .starting ∧ fs = .start ∧ q = s.plane ∧ p = 0) ∨ (s.fsm = .sendingPage ∧ fs = .page ∧ q = s.plane ∧ p = s.page) ∨
      (s.fsm = .ending ∧ fs = .finish ∧ q = 0 ∧ p = 0)) := by
  unfold State.runFail
  cases hb : s.body with
  | start => rw [hb] at hstep; exact ⟨_, _, _, rfl, .inl ⟨fsm_of_stepOf_start hstep, rfl, rfl, rfl⟩⟩
  | page => rw [hb] at hstep; exact ⟨_, _, _, rfl, .inr (.inl ⟨fsm_of_stepOf_page hstep, rfl, rfl, rfl⟩)⟩
  | finish => rw [hb] at hstep; exact ⟨_, _, _, rfl, .inr (.inr ⟨fsm_of_stepOf_finish hstep, rfl, rfl, rfl⟩)⟩

/-- RUN goes on to a next step, or it was the end step's success. -/
theorem State.runNext_busy_or_done {s : State} (hstep : stepOf s.fsm = some s.body) :
    s.runNext.busy = true ∨ (s.fsm = .ending ∧ s.runNext = s.succeed) := by
  cases hb : s.body with
  | finish =>
    rw [hb] at hstep
    exact .inr ⟨fsm_of_stepOf_finish hstep, by simp only [State.runNext, hb]⟩
  | start => left; simp only [State.runNext, hb]; rfl
  | page =>
    left
    simp only [State.runNext, hb]
    split
    · rfl
    · split <;> rfl

/-- One phase of a session leaves it in two ways: Done after the end step, Failed after a third attempt (R264). -/
theorem SessionInv.advance_leaves {s t : State} (hs : SessionInv s) (h : advance s = .next t) (ht : t.busy = false) :
    (s.phase = .ret .ok ∧ s.fsm = .ending ∧ t = s.succeed) ∨ (∃ c, s.phase = .ret (.failed c) ∧ t = s.runFail c) := by
  have hb : s.busy = true := busy_of_stepOf hs.step
  have hmoved : t.fsm ≠ s.fsm := fun hf => by simp [fsm_of_busy_eq hf, hb] at ht
  obtain ⟨r, -, rfl⟩ | ⟨r, hph, rfl⟩ | ⟨-, ⟨hfsm, -⟩, -⟩ | ⟨⟨⟨hfsm, -⟩, -⟩, -⟩ := advance_frame h
  · refine absurd ?_ hmoved
    obtain hj | ⟨v, hj⟩ | hj := s.judge_cases r <;> rw [hj] <;> rfl
  · simp only [State.finishStep, hs.scope] at ht ⊢
    cases r with
    | ok =>
      obtain hgo | ⟨hend, hdone⟩ := State.runNext_busy_or_done hs.step
      · simp [hgo] at ht
      · exact .inl ⟨hph, hend, hdone⟩
    | failed c => exact .inr ⟨c, hph, rfl⟩
  · exact absurd hfsm hmoved
  · exact absurd hfsm hmoved

/-- The host's SEND fails no session. -/
theorem exec_send_fsm {o : Byte} {s t : State} (h : exec (.send o) s = .next t) : t.fsm = s.fsm ∨ t.fsm = .starting := by
  obtain ⟨-, rfl⟩ | ⟨-, rfl⟩ := exec_send_cases h
  · exact .inl rfl
  · exact .inr rfl

theorem exec_wire_fsm {i : Instr} {s t : State} (hon : i.onWire = true) (h : exec i s = .next t) :
    t.fsm = s.fsm ∨ t.fsm = .starting := by
  obtain ⟨o, rfl, -⟩ | ⟨f, -, rfl⟩ | ⟨b, r, rfl⟩ | ⟨b, r, rfl⟩ | ⟨b, r, rfl⟩ := exec_wire_cases hon h
  · exact exec_send_fsm h
  all_goals exact .inl (by simp)

/-- A step after which no session runs, while one runs: a reset, or one phase. -/
theorem step_leaves {s t : State} (hb : s.busy = true) (h : step s = .next t) (ht : t.busy = false) :
    (s.pinUp = true ∧ t = s.nextInput.toReset) ∨ advance s.nextInput = .next t := by
  obtain hreset | ⟨b, i, -, hrun, -⟩ | ⟨o, -, -, -, he⟩ | ⟨-, -, -, ha⟩ := step_cases h
  · exact .inl hreset
  · simp [State.running_of_busy hb] at hrun
  · rw [exec_send_of_busy (s := s.nextInput) hb] at he
    cases he
    cases hb.symm.trans ht
  · exact .inr ha

/-- Settles O43: only a phase can enter FAILED, and it is RUN's failure after a third attempt. -/
theorem failedIsEnteredOneWay : Obligations.FailedIsEnteredOneWay := by
  unfold Obligations.FailedIsEnteredOneWay
  intro s t hi hne h ht
  have hstay (hf : t.fsm = s.fsm ∨ t.fsm = .starting) : False := by
    obtain hf | hf := hf
    · exact hne (hf ▸ ht)
    · simp [hf] at ht
  obtain ⟨-, rfl⟩ | ⟨b, i, -, -, -, -, hon, he⟩ | ⟨o, -, -, -, he⟩ | ⟨-, -, -, ha⟩ := step_cases h
  · cases ht
  · exact (hstay (exec_wire_fsm (s := { s with bench := none }) hon he)).elim
  · exact (hstay (exec_send_fsm (s := s.nextInput) he)).elim
  · by_cases hidle : s.phase = .idle
    · rw [advance_idle (s := s.nextInput) hidle] at ha
      cases ha
      exact absurd ht hne
    have hs : SessionInv s.nextInput := Inv.session (s := s.nextInput) hi (hi.1.of_phase hidle).1
    obtain ⟨-, -, rfl⟩ | ⟨c, hph, rfl⟩ := hs.advance_leaves ha (by simp [State.busy, ht])
    · cases ht
    · have hv := hs.verdict
      simp only [VerdictNoted, hph] at hv
      obtain ⟨-, hlast, hatt⟩ := hv
      obtain ⟨fs, q, p, heq, hplace⟩ := State.runFail_eq hs.step c
      refine ⟨c, fs, q, p, hph, hatt, hlast, hplace, ?_⟩
      rw [heq]
      rfl

/-- Settles O44: a reset, or a phase that leaves the session. -/
theorem sessionsEndInThreeWays : Obligations.SessionsEndInThreeWays := by
  unfold Obligations.SessionsEndInThreeWays
  intro s t hi hb h ht
  obtain ⟨hpin, rfl⟩ | ha := step_leaves hb h ht
  · left
    cases hin : s.inputs with
    | nil => simp [State.pinUp, hin] at hpin
    | cons inp rest => exact ⟨inp, rest, rfl, by simpa [State.pinUp, hin] using hpin, rfl, rfl⟩
  · have hs : SessionInv s.nextInput := Inv.session (s := s.nextInput) hi hb
    obtain ⟨hph, hend, rfl⟩ | ⟨c, hph, rfl⟩ := hs.advance_leaves ha ht
    · exact .inr (.inl ⟨hend, hph, rfl, hs.noReport.1, rfl, rfl⟩)
    · obtain ⟨fs, q, p, heq, -⟩ := State.runFail_eq hs.step c
      exact .inr (.inr ⟨c, fs, q, p, hph, by rw [heq]; rfl, by rw [heq]; rfl⟩)

end Sys2Proof.Machine
end

section
/-! PROOFS. The step bodies, RETRY and RUN end or wait (R271, R297): what is left of them at a place of the sequencer is bounded, and
every phase pays for itself. With it the bounds of R224, and RUN as the machine's steps (R222). -/

namespace Sys2Proof.Machine

/-! ### What is left at a place of the sequencer, at most -/

/-- Phases to perform, and answers of the environment to use: to `Tx`, to `Rx`, elapsed BUSY units. -/
structure Cost where
  phases : Nat
  tx : Nat
  rx : Nat
  waits : Nat

/-- Both costs. -/
def Cost.plus (a b : Cost) : Cost := ⟨a.phases + b.phases, a.tx + b.tx, a.rx + b.rx, a.waits + b.waits⟩

/-- A cost `n` times. -/
def Cost.times (n : Nat) (a : Cost) : Cost := ⟨n * a.phases, n * a.tx, n * a.rx, n * a.waits⟩

/-- One phase that asks nothing of the environment. -/
def Cost.phase : Cost := ⟨1, 0, 0, 0⟩

/-- From the `Rx` of a step on: the decoder, the classifier, and a start's WaitUnit (R213 to R215, R220). -/
def replyLeft : Body → Cost
  | .start => ⟨5, 0, 1, 1⟩
  | .page | .finish => ⟨4, 0, 1, 0⟩

theorem lt_replyLeft_phases (b : Body) : 3 < (replyLeft b).phases := by cases b <;> simp [replyLeft]

@[simp] theorem replyLeft_rx (b : Body) : (replyLeft b).rx = 1 := by cases b <;> rfl

/-- The sub-frames after sub-frame `k` (R214). -/
def framesAfter (b : Body) (k : Sub) : Nat := if b = .page then 5 - k.toNat else 0

/-- From the `Tx` of sub-frame `k` on: three phases for each further sub-frame, then the reply. -/
def sendLeft (b : Body) (k : Sub) : Cost := (replyLeft b).plus ⟨1 + 3 * framesAfter b k, 1 + framesAfter b k, 0, 0⟩

/-- What is left of an attempt at a phase, RETRY's test included. -/
def attemptLeft (b : Body) (k : Sub) : Phase → Cost
  | .idle | .ret _ => ⟨0, 0, 0, 0⟩
  | .segPage => ⟨20, 5, 1, 0⟩
  | .segSub => (sendLeft b k).plus ⟨2, 0, 0, 0⟩
  | .enc _ => (sendLeft b k).plus ⟨1, 0, 0, 0⟩
  | .tx => sendLeft b k
  | .rx => replyLeft b
  | .dec => ⟨(replyLeft b).phases - 1, 0, 0, (replyLeft b).waits⟩
  | .cls _ => ⟨(replyLeft b).phases - 2, 0, 0, (replyLeft b).waits⟩
  | .backoff => ⟨2, 0, 0, 1⟩
  | .judge _ => .phase

/-- A whole attempt. -/
def attemptCost : Body → Cost
  | .start => ⟨20, 1, 1, 1⟩
  | .page => ⟨20, 5, 1, 0⟩
  | .finish => ⟨20, 1, 1, 0⟩

/-- RETRY after this attempt: the attempts not yet begun, and its return. -/
def State.loopLeft (s : State) : Cost :=
  match s.scope with
  | .body => ⟨0, 0, 0, 0⟩
  | .retry | .run => ((attemptCost s.body).times (3 - s.attempt.toNat)).plus .phase

/-- `n` further steps of a session which send `f` frames when no attempt fails, `q` of them start steps. -/
def stepsCost (n f q : Nat) : Cost := Cost.times 3 ⟨0, f, n, q⟩ |>.plus ⟨61 * n, 0, 0, 0⟩

/-- The steps of R216 after this place. -/
def planLeft (q : Plane) (p : Page) : Fsm → Cost
  | .starting => if q = 0 then stepsCost 124 612 1 else stepsCost 62 306 0
  | .sendingPage =>
    if q = 0 then stepsCost (124 - p.toNat) (612 - 5 * p.toNat) 1 else stepsCost (62 - p.toNat) (306 - 5 * p.toNat) 0
  | .ending | .idle | .done | .failed => stepsCost 0 0 0

/-- RUN after this step. -/
def State.sessionLeft (s : State) : Cost :=
  match s.scope with
  | .body | .retry => ⟨0, 0, 0, 0⟩
  | .run => planLeft s.plane s.page s.fsm

/-- What is left at a place of the sequencer. -/
def State.left (s : State) : Cost :=
  match s.phase with
  | .idle => ⟨0, 0, 0, 0⟩
  | .ret _ => Cost.phase.plus s.sessionLeft
  | .segPage | .segSub | .enc _ | .tx | .rx | .dec | .cls _ | .backoff | .judge _ =>
    (attemptLeft s.body s.sub s.phase).plus (s.loopLeft.plus s.sessionLeft)

/-- From a place where `a` is left to one where `b` is left: at least one phase less, and every answer used is paid for. -/
def Pays (s : State) (a : Cost) (t : State) (b : Cost) : Prop :=
  b.phases < a.phases ∧ b.tx + s.txAns.length ≤ a.tx + t.txAns.length ∧
  b.rx + s.rxAns.length ≤ a.rx + t.rxAns.length ∧ b.waits + s.ticks ≤ a.waits + t.ticks

theorem Pays.plus {s t : State} {a b : Cost} (h : Pays s a t b) (c : Cost) : Pays s (a.plus c) t (b.plus c) := by
  simp only [Pays, Cost.plus] at h ⊢
  omega

/-! ### Every phase pays -/

/-- The sequencer's registers fit together, whoever runs the step body: what Inv says of a session, without the report. -/
structure Underway (s : State) : Prop where
  runs : s.phase ≠ .idle
  fits : phaseFits s.body s.phase = true
  sub : s.phase.inSub s.body = true → subOk s.sub = true
  page : s.body = .page → pageOk s.page = true
  attempt : s.scope ≠ .body → s.attempt ≠ 0
  step : s.scope = .run → stepOf s.fsm = some s.body

/-- A phase of an attempt, RETRY's test included. -/
def Phase.inAttempt : Phase → Prop
  | .idle | .ret _ => False
  | .segPage | .segSub | .enc _ | .tx | .rx | .dec | .cls _ | .backoff | .judge _ => True

theorem State.left_of_inAttempt {s : State} (h : s.phase.inAttempt) :
    s.left = (attemptLeft s.body s.sub s.phase).plus (s.loopLeft.plus s.sessionLeft) := by
  unfold State.left
  split <;> simp_all [Phase.inAttempt]

theorem advance_enc {s : State} {p : List Byte} (h : s.phase = .enc p) :
    ∃ f, advance s = .next ((s.putFrame f).atPhase .tx) := by
  obtain ⟨f, hf, -⟩ := encodeOf_next s.body p s
  exact ⟨f, by simp only [advance, h, hf, onNext_next]⟩

theorem advance_backoff_succ {s : State} {n : Nat} (h : s.phase = .backoff) (hn : s.ticks = n + 1) :
    advance s = .next ((State.emit { s with ticks := n } .waitUnit).atPhase (.judge (.retry .startBusy))) := by
  rw [advance_backoff h, State.await_succ hn]

/-- Inside an attempt a phase leads to a phase of the attempt, at less cost, and leaves the rest of the session alone. -/
structure AttemptStep (s t : State) : Prop where
  session : SameSession s t
  inAttempt : t.phase.inAttempt
  fits : phaseFits s.body t.phase = true
  sub : t.phase.inSub s.body = true → subOk t.sub = true
  pays : Pays s (attemptLeft s.body s.sub s.phase) t (attemptLeft s.body t.sub t.phase)

theorem afterDecode_step (n : Config.EndLen) (b : Body) (r : List Byte) (k k' : Sub) (s : State) :
    (afterDecode n b r).inAttempt ∧ (afterDecode n b r).inSub b = false ∧
    Pays s (attemptLeft b k .dec) s (attemptLeft b k' (afterDecode n b r)) := by
  cases b with
  | start => cases h : startReplyOf r <;> simp [afterDecode, h, Phase.inAttempt, Phase.inSub, Pays, attemptLeft, replyLeft, Cost.phase]
  | page => cases h : dataReplyOf r <;> simp [afterDecode, h, Phase.inAttempt, Phase.inSub, Pays, attemptLeft, replyLeft, Cost.phase]
  | finish => cases h : endReplyOf n r <;> simp [afterDecode, h, Phase.inAttempt, Phase.inSub, Pays, attemptLeft, replyLeft, Cost.phase]

theorem afterClass_step (b : Body) (st : Byte) (k k' : Sub) (s : State) :
    (afterClass b st).inAttempt ∧ (afterClass b st).inSub b = false ∧
    Pays s (attemptLeft b k (.cls st)) s (attemptLeft b k' (afterClass b st)) := by
  cases b with
  | start =>
    simp only [afterClass]
    split <;> simp [Phase.inAttempt, Phase.inSub, Pays, attemptLeft, replyLeft, Cost.phase]
  | page | finish => simp [afterClass, Phase.inAttempt, Phase.inSub, Pays, attemptLeft, replyLeft, Cost.phase]

/-- An answered `Tx`. -/
theorem Underway.tx_step {s t : State} (hs : Underway s) (hph : s.phase = .tx) {a : TxAnswer} {rest : List TxAnswer}
    (hans : s.txAns = a :: rest) (ht : t = State.afterTx (State.emit { s with txAns := rest } (.tx s.txFrame a)) a) :
    AttemptStep s t := by
  have hsub := hs.sub
  simp only [hph, Phase.inSub, beq_iff_eq] at hsub
  subst ht
  cases a with
  | err =>
    simp only [State.afterTx, State.leaveSubs_eq]
    refine ⟨.refl s, trivial, rfl, nofun, ?_⟩
    have := lt_replyLeft_phases s.body
    simp [Pays, hph, hans, attemptLeft, sendLeft, Cost.plus, Cost.phase]
    omega
  | ok =>
    simp only [State.afterTx]
    split
    next hk =>
      simp only [State.emit_body, State.emit_sub] at hk
      obtain ⟨hb, hk⟩ := hk
      have hnext : (s.sub + 1).toNat = s.sub.toNat + 1 := by bv_omega
      have hok : subOk (s.sub + 1) = true := subOk_eq_true (by omega) (by omega)
      refine ⟨.refl s, trivial, by simp [phaseFits, hb], fun _ => hok, ?_⟩
      simp only [Pays, hph, hans, hb, attemptLeft, sendLeft, framesAfter, Cost.plus, hnext, State.emit_sub, State.emit_txAns,
        State.emit_rxAns, State.emit_ticks, List.length_cons, if_pos]
      omega
    next =>
      simp only [State.leaveSubs_eq]
      refine ⟨.refl s, trivial, rfl, nofun, ?_⟩
      simp [Pays, hph, hans, attemptLeft, sendLeft, Cost.plus]
      omega

/-- An answered `Rx`. -/
theorem Underway.rx_step {s t : State} (hph : s.phase = .rx) {a : RxAnswer} {rest : List RxAnswer}
    (hans : s.rxAns = a :: rest) {n : Nat}
    (ht : t = State.afterRx ((State.receive { s with rxAns := rest } (a.upTo n)).emit (.rx n (a.upTo n))) (a.upTo n)) :
    AttemptStep s t := by
  subst ht
  cases a with
  | err =>
    refine ⟨.refl s, trivial, rfl, nofun, ?_⟩
    have := lt_replyLeft_phases s.body
    simp [State.afterRx, RxAnswer.upTo, Pays, hph, hans, attemptLeft, Cost.phase]
    omega
  | bytes b =>
    refine ⟨.refl s, trivial, rfl, nofun, ?_⟩
    have := lt_replyLeft_phases s.body
    simp [State.afterRx, RxAnswer.upTo, Pays, hph, hans, attemptLeft]
    omega

/-- A phase of an attempt before RETRY's test, when no answer is missing. -/
theorem Underway.attemptStep {s : State} (hs : Underway s) (hin : s.phase.inAttempt) (hj : ∀ r, s.phase ≠ .judge r)
    (hr : s.atRest = false) : ∃ t, advance s = .next t ∧ AttemptStep s t := by
  have hfits := hs.fits
  have hsub := hs.sub
  cases hph : s.phase with
  | idle | ret => simp [Phase.inAttempt, hph] at hin
  | judge r => exact absurd hph (hj r)
  | segPage =>
    have hb : s.body = .page := by simpa [hph, phaseFits] using hfits
    have hk : subOk 1 = true := by decide
    refine ⟨_, advance_segPage hph (hs.page hb), .refl s, trivial, by simp [hb, phaseFits], fun _ => hk, ?_⟩
    simp [Pays, hph, hb, attemptLeft, sendLeft, replyLeft, framesAfter, Cost.plus]
  | segSub =>
    have hb : s.body = .page := by simpa [hph, phaseFits] using hfits
    have hk : subOk s.sub = true := hsub (by simp [hph, Phase.inSub, hb])
    refine ⟨_, advance_segSub hph hk, .refl s, trivial, rfl, fun _ => hk, ?_⟩
    simp [Pays, hph, attemptLeft, Cost.plus]
  | enc p =>
    obtain ⟨f, hf⟩ := advance_enc hph
    refine ⟨_, hf, .refl s, trivial, rfl, fun hk => hsub ?_, ?_⟩
    · simpa [hph, Phase.inSub] using hk
    · simp [Pays, hph, attemptLeft, Cost.plus]
  | tx =>
    cases hans : s.txAns with
    | nil => simp [State.atRest, hph, hans] at hr
    | cons a rest => exact ⟨_, by rw [advance_tx hph, State.transmit_cons hans], hs.tx_step hph hans rfl⟩
  | rx =>
    cases hans : s.rxAns with
    | nil => simp [State.atRest, hph, hans] at hr
    | cons a rest => exact ⟨_, by rw [advance_rx hph, State.request_cons hans], Underway.rx_step hph hans rfl⟩
  | dec =>
    obtain ⟨c, st, p, sl, r, hd⟩ := advance_dec hph
    obtain ⟨hin', hsub', hpay⟩ := afterDecode_step s.endLen s.body s.rxBytes s.sub s.sub s
    refine ⟨_, hd, .refl s, hin', (afterDecode_placeFits _ _ _).1.fits, by simp [hsub'], ?_⟩
    rw [hph]
    exact hpay
  | cls st =>
    obtain ⟨c, hc⟩ := advance_cls hph
    obtain ⟨hin', hsub', hpay⟩ := afterClass_step s.body st s.sub s.sub s
    refine ⟨_, hc, .refl s, hin', (afterClass_placeFits _ _).1.fits, by simp [hsub'], ?_⟩
    rw [hph]
    exact hpay
  | backoff =>
    cases hn : s.ticks with
    | zero => simp [State.atRest, hph, hn] at hr
    | succ n =>
      refine ⟨_, advance_backoff_succ hph hn, .refl s, trivial, rfl, nofun, ?_⟩
      simp [Pays, hph, hn, attemptLeft, Cost.phase]

theorem SameSession.loopLeft {s t : State} (h : SameSession s t) : t.loopLeft = s.loopLeft := by
  obtain ⟨⟨-, -, -, hatt, -⟩, -, -, hbody, hscope⟩ := h
  rw [State.loopLeft, State.loopLeft, hatt, hbody, hscope]

theorem SameSession.sessionLeft {s t : State} (h : SameSession s t) : t.sessionLeft = s.sessionLeft := by
  obtain ⟨⟨hfsm, hplane, hpage, -, -⟩, -, -, -, hscope⟩ := h
  rw [State.sessionLeft, State.sessionLeft, hfsm, hplane, hpage, hscope]

/-- A step of an attempt keeps the place together and pays. -/
theorem AttemptStep.underway {s t : State} (h : AttemptStep s t) (hs : Underway s) (hin : s.phase.inAttempt) :
    Underway t ∧ Pays s s.left t t.left := by
  have hsame := h.session
  obtain ⟨⟨hfsm, -, hpage, hatt, -⟩, -, -, hbody, hscope⟩ := hsame
  refine ⟨⟨fun hidle => ?_, by rw [hbody]; exact h.fits, by rw [hbody]; exact h.sub, by rw [hbody, hpage]; exact hs.page,
    by rw [hscope, hatt]; exact hs.attempt, by rw [hscope, hfsm, hbody]; exact hs.step⟩, ?_⟩
  · simpa [hidle, Phase.inAttempt] using h.inAttempt
  · rw [State.left_of_inAttempt hin, State.left_of_inAttempt h.inAttempt, hbody, h.session.loopLeft, h.session.sessionLeft]
    exact h.pays.plus _

theorem firstPhase_inAttempt (b : Body) : (firstPhase b).inAttempt := by cases b <;> trivial

/-- A step body begins. -/
theorem underway_first {s : State} (hph : s.phase = firstPhase s.body) (hpage : s.body = .page → pageOk s.page = true)
    (hatt : s.scope ≠ .body → s.attempt ≠ 0) (hstep : s.scope = .run → stepOf s.fsm = some s.body) : Underway s := by
  refine ⟨?_, ?_, ?_, hpage, hatt, hstep⟩ <;> rw [hph] <;> cases s.body <;> simp [firstPhase, phaseFits, Phase.inSub]

/-! ### RETRY's test and RUN's continuation pay -/

/-- A cost is at most another. -/
abbrev Cost.Le (a b : Cost) : Prop := a.phases ≤ b.phases ∧ a.tx ≤ b.tx ∧ a.rx ≤ b.rx ∧ a.waits ≤ b.waits

theorem attemptLeft_first_le (b : Body) (k : Sub) : (attemptLeft b k (firstPhase b)).Le (attemptCost b) := by
  cases b <;> simp [firstPhase, attemptLeft, attemptCost, sendLeft, replyLeft, framesAfter, Cost.plus, Cost.Le]

theorem State.left_of_idle {s : State} (h : s.phase = .idle) : s.left = ⟨0, 0, 0, 0⟩ := by simp only [State.left, h]

theorem State.left_of_ret {s : State} {r : StepResult} (h : s.phase = .ret r) : s.left = Cost.phase.plus s.sessionLeft := by
  simp only [State.left, h]

theorem State.loopLeft_of_loop {s : State} (h : s.scope ≠ .body) :
    s.loopLeft = ((attemptCost s.body).times (3 - s.attempt.toNat)).plus .phase := by
  unfold State.loopLeft
  split
  · contradiction
  all_goals rfl

/-- Where something is left, an end costs nothing. -/
theorem pays_idle {s t : State} (hs : 0 < s.left.phases) (ht : t.phase = .idle) (htx : t.txAns = s.txAns)
    (hrx : t.rxAns = s.rxAns) (hticks : t.ticks = s.ticks) : Pays s s.left t t.left := by
  rw [State.left_of_idle ht]
  simp only [Pays, htx, hrx, hticks]
  omega

/-- RETRY's test (R212). -/
theorem Underway.judge_step {s : State} {r : AttemptResult} (hs : Underway s) (hph : s.phase = .judge r) :
    ((s.judge r).phase = .idle ∨ Underway (s.judge r)) ∧ Pays s s.left (s.judge r) (s.judge r).left := by
  have hleft : s.left = Cost.phase.plus (s.loopLeft.plus s.sessionLeft) := by
    rw [State.left_of_inAttempt (by rw [hph]; trivial), hph]
    rfl
  have hret (v : StepResult) (c : Cause) : Underway (State.atPhase { s with lastCause := c } (.ret v)) :=
    { runs := nofun, fits := rfl, sub := nofun, page := hs.page, attempt := hs.attempt, step := hs.step }
  by_cases hscope : s.scope = .body
  · have hj : s.judge r = (s.returns (.attempt r)).atPhase .idle := by simp only [State.judge, hscope]
    rw [hj]
    exact ⟨.inl rfl, pays_idle (by simp [hleft, Cost.plus, Cost.phase]) rfl rfl rfl rfl⟩
  have hpay {t : State} {v : StepResult} (hv : t.phase = .ret v) (hsess : t.sessionLeft = s.sessionLeft)
      (htx : t.txAns = s.txAns) (hrx : t.rxAns = s.rxAns) (hticks : t.ticks = s.ticks) : Pays s s.left t t.left := by
    rw [hleft, State.left_of_ret hv, hsess, State.loopLeft_of_loop hscope]
    simp only [Pays, Cost.plus, Cost.phase, htx, hrx, hticks]
    omega
  cases r with
  | success =>
    rw [State.judge_success hscope]
    exact ⟨.inr (hret .ok .none), hpay rfl rfl rfl rfl rfl⟩
  | retry c =>
    by_cases hatt : s.attempt = 3
    · rw [State.judge_last hscope hatt]
      exact ⟨.inr (hret (.failed c) c), hpay rfl rfl rfl rfl rfl⟩
    · rw [State.judge_again hscope hatt]
      have h0 := hs.attempt hscope
      have hnext : s.attempt + 1 ≠ 0 := by bv_omega
      have hcount : 3 - s.attempt.toNat = 3 - (s.attempt + 1).toNat + 1 := by bv_omega
      have hbegin : Underway (State.beginAttempt { s with lastCause := c }) :=
        underway_first rfl hs.page (fun _ => hnext) hs.step
      refine ⟨.inr hbegin, ?_⟩
      obtain ⟨hp, htx, hrx, hw⟩ := attemptLeft_first_le s.body s.sub
      rw [hleft, State.left_of_inAttempt (firstPhase_inAttempt s.body), State.loopLeft_of_loop hscope,
        State.loopLeft_of_loop (s := State.beginAttempt { s with lastCause := c }) hscope]
      simp only [Pays, Cost.plus, Cost.times, Cost.phase, State.beginAttempt_body, State.beginAttempt_attempt,
        State.beginAttempt_sub, State.beginAttempt_phase, State.beginAttempt_txAns, State.beginAttempt_rxAns,
        State.beginAttempt_ticks, State.sessionLeft, State.beginAttempt_scope, State.beginAttempt_plane,
        State.beginAttempt_page, State.beginAttempt_fsm, hcount, Nat.succ_mul]
      omega

/-- A step in RETRY: three attempts and the return. -/
def stepCost (b : Body) : Cost := ((attemptCost b).times 3).plus .phase

/-- A loop of RETRY begins with its whole cost left. -/
theorem enterRetry_left_le (s : State) (b : Body) {sc : Scope} (h : sc ≠ .body) :
    (s.enterRetry b sc).left.Le ((stepCost b).plus (s.enterRetry b sc).sessionLeft) := by
  obtain ⟨hp, htx, hrx, hw⟩ := attemptLeft_first_le b s.sub
  rw [State.left_of_inAttempt (firstPhase_inAttempt b), State.loopLeft_of_loop h]
  simp only [Cost.Le, Cost.plus, Cost.times, Cost.phase, stepCost, State.enterRetry_body, State.enterRetry_attempt,
    State.enterRetry_sub, State.enterRetry_phase]
  simp only [BitVec.reduceToNat]
  omega

/-- RUN goes on to a step whose cost, with the steps after it, was left. -/
theorem pays_enter {s t : State} {r : StepResult} {b : Body} {c : Cost} (hph : s.phase = .ret r)
    (hleft : t.left.Le ((stepCost b).plus c)) (hplan : ((stepCost b).plus c).Le s.sessionLeft)
    (htx : t.txAns = s.txAns) (hrx : t.rxAns = s.rxAns) (hticks : t.ticks = s.ticks) : Pays s s.left t t.left := by
  rw [State.left_of_ret hph]
  simp only [Pays, Cost.Le, Cost.plus, Cost.phase, htx, hrx, hticks] at *
  omega

/-- RUN after a step that succeeded (R216). -/
theorem Underway.runNext_step {s : State} {r : StepResult} (hs : Underway s) (hph : s.phase = .ret r) (hscope : s.scope = .run) :
    (s.runNext.phase = .idle ∨ Underway s.runNext) ∧ Pays s s.left s.runNext s.runNext.left := by
  have hstep := hs.step hscope
  have henter {b : Body} {t : State} (ht : (t.enterRetry b .run).sessionLeft = planLeft t.plane t.page t.fsm) :=
    ht ▸ enterRetry_left_le t b (sc := .run) nofun
  cases hb : s.body with
  | start =>
    have hf := fsm_of_stepOf_start (hb ▸ hstep)
    have hnext : s.runNext = s.enterPage 1 := by simp only [State.runNext, hb]
    rw [hnext]
    refine ⟨.inr (underway_first rfl (fun _ => rfl) (fun _ => nofun) (fun _ => rfl)), ?_⟩
    refine pays_enter hph (henter (t := { s with page := 1, fsm := .sendingPage }) rfl) ?_ rfl rfl rfl
    simp only [State.sessionLeft, hscope, hf, planLeft]
    split <;> simp [Cost.Le, stepCost, attemptCost, stepsCost, Cost.plus, Cost.times, Cost.phase]
  | page =>
    have hf := fsm_of_stepOf_page (hb ▸ hstep)
    have hok := hs.page hb
    simp only [pageOk, Config.pagesPerColor, Bool.and_eq_true, decide_eq_true_eq] at hok
    by_cases hlt : s.page.toNat < 61
    · have hnext : s.runNext = s.enterPage (s.page + 1) := by simp only [State.runNext, hb]; exact if_pos hlt
      have hp : (s.page + 1).toNat = s.page.toNat + 1 := by bv_omega
      have hok' : pageOk (s.page + 1) = true := pageOk_eq_true (by omega) (by omega)
      rw [hnext]
      refine ⟨.inr (underway_first rfl (fun _ => hok') (fun _ => nofun) (fun _ => rfl)), ?_⟩
      refine pays_enter hph (henter (t := { s with page := s.page + 1, fsm := .sendingPage }) rfl) ?_ rfl rfl rfl
      simp only [State.sessionLeft, hscope, hf, planLeft, hp]
      split <;> simp only [Cost.Le, stepCost, attemptCost, stepsCost, Cost.plus, Cost.times, Cost.phase] <;> omega
    have hlast : s.page.toNat = 61 := by omega
    by_cases hq : s.plane = 0
    · have hnext : s.runNext = s.enterPlane 1 := by
        simp only [State.runNext, hb]
        exact (if_neg hlt).trans (if_pos hq)
      rw [hnext]
      refine ⟨.inr (underway_first rfl nofun (fun _ => nofun) (fun _ => rfl)), ?_⟩
      have hleft : (s.enterPlane 1).left.Le ((stepCost .start).plus (stepsCost 62 306 0)) :=
        henter (t := { s with plane := 1, page := 0, fsm := .starting }) rfl
      refine pays_enter hph hleft ?_ rfl rfl rfl
      simp only [State.sessionLeft, hscope, hf, planLeft, hlast, if_pos hq]
      decide
    · have hnext : s.runNext = s.enterEnd := by
        simp only [State.runNext, hb]
        exact (if_neg hlt).trans (if_neg hq)
      rw [hnext]
      refine ⟨.inr (underway_first rfl nofun (fun _ => nofun) (fun _ => rfl)), ?_⟩
      refine pays_enter hph (henter (t := { s with page := 0, fsm := .ending }) rfl) ?_ rfl rfl rfl
      simp only [State.sessionLeft, hscope, hf, planLeft, hlast, if_neg hq]
      decide
  | finish =>
    have hnext : s.runNext = s.succeed := by simp only [State.runNext, hb]
    rw [hnext]
    exact ⟨.inl rfl, pays_idle (by simp [State.left_of_ret hph, Cost.plus, Cost.phase]) rfl rfl rfl rfl⟩

theorem State.runFail_idle (s : State) (c : Cause) : (s.runFail c).phase = .idle ∧ (s.runFail c).txAns = s.txAns ∧
    (s.runFail c).rxAns = s.rxAns ∧ (s.runFail c).ticks = s.ticks := by
  unfold State.runFail
  cases s.body <;> exact ⟨rfl, rfl, rfl, rfl⟩

/-- The end of a step (R212, R216). -/
theorem Underway.ret_step {s : State} {r : StepResult} (hs : Underway s) (hph : s.phase = .ret r) :
    ((s.finishStep r).phase = .idle ∨ Underway (s.finishStep r)) ∧ Pays s s.left (s.finishStep r) (s.finishStep r).left := by
  have hpos : 0 < s.left.phases := by simp [State.left_of_ret hph, Cost.plus, Cost.phase]
  cases hscope : s.scope with
  | body | retry =>
    have hf : s.finishStep r = (s.returns (.step r)).atPhase .idle := by simp only [State.finishStep, hscope]
    rw [hf]
    exact ⟨.inl rfl, pays_idle hpos rfl rfl rfl rfl⟩
  | run =>
    cases r with
    | ok =>
      have hf : s.finishStep .ok = s.runNext := by simp only [State.finishStep, hscope]
      rw [hf]
      exact hs.runNext_step hph hscope
    | failed c =>
      have hf : s.finishStep (.failed c) = s.runFail c := by simp only [State.finishStep, hscope]
      obtain ⟨hidle, htx, hrx, hticks⟩ := s.runFail_idle c
      rw [hf]
      exact ⟨.inl hidle, pays_idle hpos hidle htx hrx hticks⟩

/-- Every phase that can be performed keeps the sequencer's registers together, or is the last, and pays. -/
theorem Underway.advance_pays {s : State} (hs : Underway s) (hr : s.atRest = false) :
    ∃ t, advance s = .next t ∧ (t.phase = .idle ∨ Underway t) ∧ Pays s s.left t t.left := by
  by_cases hj : ∃ r, s.phase = .judge r
  · obtain ⟨r, hj⟩ := hj
    exact ⟨_, advance_judge hj, hs.judge_step hj⟩
  by_cases hret : ∃ r, s.phase = .ret r
  · obtain ⟨r, hret⟩ := hret
    exact ⟨_, advance_ret hret, hs.ret_step hret⟩
  have hin : s.phase.inAttempt := by
    have hruns := hs.runs
    cases hph : s.phase <;> simp_all [Phase.inAttempt]
  obtain ⟨t, ha, hstep⟩ := hs.attemptStep hin (not_exists.mp hj) hr
  obtain ⟨ht, hpays⟩ := hstep.underway hs hin
  exact ⟨t, ha, .inr ht, hpays⟩

/-! ### A drive ends or waits -/

/-- What is still left is covered by the answers that a drive from `s`, whose costs were `c`, has not used. -/
def Covered (s : State) (c : Cost) (t : State) : Prop :=
  t.left.tx + s.txAns.length ≤ c.tx + t.txAns.length ∧ t.left.rx + s.rxAns.length ≤ c.rx + t.rxAns.length ∧
  t.left.waits + s.ticks ≤ c.waits + t.ticks

theorem Covered.pays {s t u : State} {c : Cost} (h : Covered s c t) (hp : Pays t t.left u u.left) : Covered s c u := by
  simp only [Covered, Pays] at *
  omega

/-- As many phases as are left suffice for a drive to end or to wait; what every phase performed keeps, it keeps. -/
theorem drive_ends {P : State → Prop} (hP : ∀ u v, Underway u → u.atRest = false → P u → advance u = .next v → P v) {n : Nat} {s : State}
    (hs : s.phase = .idle ∨ Underway s) (hn : s.left.phases ≤ n) (h : P s) :
    ∃ t, drive n s = .next t ∧ t.atRest = true ∧ (t.phase = .idle ∨ Underway t) ∧ P t := by
  induction n generalizing s with
  | zero =>
    cases hr : s.atRest with
    | true => exact ⟨s, rfl, hr, hs, h⟩
    | false =>
      obtain hidle | hu := hs
      · simp [State.atRest, hidle] at hr
      · obtain ⟨t, -, -, hpays, -⟩ := hu.advance_pays hr
        omega
  | succ n ih =>
    cases hr : s.atRest with
    | true => exact ⟨s, drive_rest hr _, hr, hs, h⟩
    | false =>
      obtain hidle | hu := hs
      · simp [State.atRest, hidle] at hr
      · obtain ⟨t, ha, ht, hpays, -⟩ := hu.advance_pays hr
        rw [drive_go hr ha]
        exact ih ht (by omega) (hP s t hu hr h ha)

theorem drive_ends_or_waits {n : Nat} {s : State} (hs : Underway s) (hn : s.left.phases ≤ n) :
    ∃ t, drive n s = .next t ∧ t.atRest = true := by
  obtain ⟨t, hd, hr, -⟩ := drive_ends (P := fun _ => True) (fun _ _ _ _ _ _ => trivial) (.inr hs) hn trivial
  exact ⟨t, hd, hr⟩

theorem enterBody_underway {s : State} {b : Body} (h : b = .page → pageOk s.page = true) : Underway (s.enterBody b) :=
  underway_first rfl h (by simp) nofun

theorem enterBody_left_le (s : State) (b : Body) : (s.enterBody b).left.phases ≤ bodyPhases := by
  obtain ⟨hp, -⟩ := attemptLeft_first_le b s.sub
  rw [State.left_of_inAttempt (firstPhase_inAttempt b)]
  cases b <;> exact hp

theorem enterRetry_underway {s : State} {b : Body} (h : b = .page → pageOk s.page = true) : Underway (s.enterRetry b .retry) :=
  underway_first rfl h (fun _ => nofun) nofun

theorem enterRetry_phases_le (s : State) (b : Body) : (s.enterRetry b .retry).left.phases ≤ retryPhases := by
  obtain ⟨hp, -⟩ := enterRetry_left_le s b (sc := .retry) nofun
  cases b <;> exact hp

theorem enterPlane_underway (s : State) : Underway (s.enterPlane 0) :=
  underway_first rfl nofun (fun _ => nofun) (fun _ => rfl)

/-- The whole of a session: 125 steps, which send 613 frames when no attempt fails, two of them start steps (R224). -/
def sessionCost : Cost := ⟨runPhases, 1839, 375, 6⟩

theorem enterPlane_left_le (s : State) : (s.enterPlane 0).left.Le sessionCost :=
  enterRetry_left_le { s with plane := 0, page := 0, fsm := .starting } .start (sc := .run) nofun

/-- Settles O38: a body is one attempt of at most 20 phases, RETRY three of them. -/
theorem stepsEndOrWait : Obligations.StepsEndOrWait := by
  unfold Obligations.StepsEndOrWait
  refine fun s => ⟨?_, ?_, fun hlo hhi => ?_, fun b hpage => ?_⟩
  · exact drive_ends_or_waits (enterBody_underway nofun) (enterBody_left_le s .start)
  · exact drive_ends_or_waits (enterBody_underway nofun) (enterBody_left_le s .finish)
  · exact drive_ends_or_waits (enterBody_underway fun _ => pageOk_eq_true hlo hhi) (enterBody_left_le s .page)
  · refine drive_ends_or_waits (enterRetry_underway fun hb => ?_) (enterRetry_phases_le s b)
    exact pageOk_eq_true (hpage hb).1 (hpage hb).2

/-- Settles O39: RUN is 125 loops of RETRY. -/
theorem runEndsOrWaits : Obligations.RunEndsOrWaits := by
  unfold Obligations.RunEndsOrWaits
  exact fun s => drive_ends_or_waits (enterPlane_underway s) (enterPlane_left_le s).1

/-! ### The trace of a run (R9, R224) -/

/-- No terminal event is among these. -/
def NoTerminal (evs : List Event) : Prop := ∀ y, Event.terminal y ∉ evs

theorem NoTerminal.append {a b : List Event} (ha : NoTerminal a) (hb : NoTerminal b) : NoTerminal (a ++ b) := by
  intro y hy
  obtain h | h := List.mem_append.mp hy
  · exact ha y h
  · exact hb y h

/-- A phase uses none of what the host presents, and outside RUN's continuation it emits no terminal event. -/
theorem advance_events {s t : State} (h : advance s = .next t) : t.inputs = s.inputs ∧
    ((∃ r, s.phase = .ret r) ∨ ∃ evs, NoTerminal evs ∧ t.trace = s.trace ++ evs) := by
  have silent {u : State} (hu : u.trace = s.trace) : ∃ evs, NoTerminal evs ∧ u.trace = s.trace ++ evs :=
    ⟨[], nofun, by rw [hu, List.append_nil]⟩
  cases hph : s.phase with
  | idle => rw [advance_idle hph] at h; cases h; exact ⟨rfl, .inr (silent rfl)⟩
  | segPage =>
    cases hp : pageOk s.page with
    | true => rw [advance_segPage hph hp] at h; cases h; exact ⟨rfl, .inr (silent rfl)⟩
    | false => rw [advance_segPage_fault hph hp] at h; cases h
  | segSub =>
    cases hk : subOk s.sub with
    | true => rw [advance_segSub hph hk] at h; cases h; exact ⟨rfl, .inr (silent rfl)⟩
    | false => rw [advance_segSub_fault hph hk] at h; cases h
  | enc p => obtain ⟨f, hf⟩ := advance_enc hph; rw [hf] at h; cases h; exact ⟨rfl, .inr (silent rfl)⟩
  | tx =>
    obtain rfl | ⟨a, rest, k, p, -, -, rfl⟩ := advance_tx_cases hph h
    · exact ⟨rfl, .inr (silent rfl)⟩
    · exact ⟨rfl, .inr ⟨_, by simp [NoTerminal], rfl⟩⟩
  | rx =>
    obtain rfl | ⟨a, rest, p, -, -, ht⟩ := advance_rx_cases hph h
    · exact ⟨rfl, .inr (silent rfl)⟩
    · rw [ht]; exact ⟨rfl, .inr ⟨_, by simp [NoTerminal], rfl⟩⟩
  | dec => obtain ⟨c, st, p, sl, r, hd⟩ := advance_dec hph; rw [hd] at h; cases h; exact ⟨rfl, .inr (silent rfl)⟩
  | cls st => obtain ⟨c, hc⟩ := advance_cls hph; rw [hc] at h; cases h; exact ⟨rfl, .inr (silent rfl)⟩
  | backoff =>
    obtain rfl | ⟨n, -, rfl⟩ := advance_backoff_cases hph h
    · exact ⟨rfl, .inr (silent rfl)⟩
    · exact ⟨rfl, .inr ⟨_, by simp [NoTerminal], rfl⟩⟩
  | judge r =>
    rw [advance_judge hph] at h
    cases h
    obtain hj | ⟨v, hj⟩ | hj := s.judge_cases r <;> rw [hj] <;> exact ⟨rfl, .inr (silent rfl)⟩
  | ret r =>
    rw [advance_ret hph] at h
    cases h
    refine ⟨?_, .inl ⟨r, rfl⟩⟩
    obtain hf | ⟨p, hf⟩ | ⟨q, hf⟩ | hf | hf | ⟨fs, q, p, c, hf⟩ := s.finishStep_cases r <;> rw [hf] <;> rfl

/-- The session has ended, with this event. -/
def State.EndedBy (s : State) (x : Terminal) : Prop :=
  (s.fsm = .done ∧ x = .done) ∨ (s.fsm = .failed ∧ x = .failed s.failStep s.failPlane s.failPage s.failCause)

/-- The trace of RUN since `s`: no terminal event while it runs, and one at its end, the last. -/
def RunTrace (s t : State) : Prop :=
  ∃ evs, NoTerminal evs ∧
    ((t.phase ≠ .idle ∧ t.scope = .run ∧ t.trace = s.trace ++ evs) ∨
      (t.phase = .idle ∧ ∃ x, t.EndedBy x ∧ t.trace = s.trace ++ evs ++ [.terminal x]))

/-- RETRY's test in RUN does not end the run. -/
theorem State.judge_runs_on {s : State} (hscope : s.scope = .run) (r : AttemptResult) :
    (s.judge r).phase ≠ .idle ∧ (s.judge r).scope = .run := by
  have hs : s.scope ≠ .body := by simp [hscope]
  cases r with
  | success => rw [State.judge_success hs]; exact ⟨nofun, hscope⟩
  | retry c =>
    by_cases hatt : s.attempt = 3
    · rw [State.judge_last hs hatt]; exact ⟨nofun, hscope⟩
    · rw [State.judge_again hs hatt]
      refine ⟨?_, hscope⟩
      change firstPhase s.body ≠ .idle
      cases s.body <;> nofun

/-- A phase of RUN before its continuation does not end the run. -/
theorem advance_runs_on {s t : State} (hrun : s.phase ≠ .idle) (hscope : s.scope = .run) (hret : ∀ r, s.phase ≠ .ret r)
    (h : advance s = .next t) : t.phase ≠ .idle ∧ t.scope = .run := by
  by_cases hj : ∃ r, s.phase = .judge r
  · obtain ⟨r, hj⟩ := hj
    rw [advance_judge hj] at h
    cases h
    exact State.judge_runs_on hscope r
  constructor
  · intro hidle
    have hlead := advance_group h
    rw [hidle] at hlead
    cases hph : s.phase <;> simp_all [Phase.group, PhaseGroup.leadsTo]
  · obtain ⟨r, hph, -⟩ | ⟨r, hph, -⟩ | ⟨-, -, -, -, -, hsc⟩ | ⟨⟨-, -, -, -, hsc⟩, -⟩ := advance_frame h
    · exact absurd ⟨r, hph⟩ hj
    · exact absurd hph (hret r)
    · exact hsc.trans hscope
    · exact hsc.trans hscope

/-- RUN's continuation goes on without an event, or ends the run with one. -/
theorem State.finishStep_run {s : State} (hscope : s.scope = .run) (r : StepResult) :
    ((s.finishStep r).phase ≠ .idle ∧ (s.finishStep r).scope = .run ∧ (s.finishStep r).trace = s.trace) ∨
    ((s.finishStep r).phase = .idle ∧ ∃ x, (s.finishStep r).EndedBy x ∧ (s.finishStep r).trace = s.trace ++ [.terminal x]) := by
  simp only [State.finishStep, hscope]
  cases r with
  | ok =>
    obtain ⟨p, hf⟩ | ⟨q, hf⟩ | hf | hf := s.runNext_cases <;> rw [hf]
    · exact .inl ⟨nofun, rfl, rfl⟩
    · exact .inl ⟨nofun, rfl, rfl⟩
    · exact .inl ⟨nofun, rfl, rfl⟩
    · exact .inr ⟨rfl, _, .inl ⟨rfl, rfl⟩, rfl⟩
  | failed c =>
    simp only [State.runFail]
    cases s.body <;> exact .inr ⟨rfl, _, .inr ⟨rfl, rfl⟩, rfl⟩

theorem Underway.runTrace {s u v : State} (hu : Underway u) (h : RunTrace s u) (ha : advance u = .next v) : RunTrace s v := by
  obtain ⟨evs, hevs, ⟨hrun, hscope, htrace⟩ | ⟨hidle, -⟩⟩ := h
  · by_cases hret : ∃ r, u.phase = .ret r
    · obtain ⟨r, hret⟩ := hret
      rw [advance_ret hret] at ha
      cases ha
      exact ⟨evs, hevs, htrace ▸ State.finishStep_run hscope r⟩
    · obtain ⟨-, hret' | ⟨evs', hevs', htrace'⟩⟩ := advance_events ha
      · exact absurd hret' hret
      · obtain ⟨hrun', hscope'⟩ := advance_runs_on hrun hscope (not_exists.mp hret) ha
        exact ⟨evs ++ evs', hevs.append hevs', .inl ⟨hrun', hscope', by rw [htrace', htrace, List.append_assoc]⟩⟩
  · exact absurd hidle hu.runs

/-- With answers for all that is left, a drive at rest has ended. -/
theorem Covered.idle {s t : State} {c : Cost} (h : Covered s c t) (hr : t.atRest = true)
    (htx : c.tx ≤ s.txAns.length) (hrx : c.rx ≤ s.rxAns.length) (hticks : c.waits ≤ s.ticks) : t.phase = .idle := by
  obtain ⟨htx', hrx', hticks'⟩ := h
  unfold State.atRest at hr
  cases hph : t.phase with
  | idle => rfl
  | tx =>
    have hnil : t.txAns = [] := by simpa [hph] using hr
    have hleft : 0 < t.left.tx := by
      rw [State.left_of_inAttempt (by rw [hph]; trivial), hph]
      simp only [attemptLeft, sendLeft, Cost.plus]
      omega
    simp only [hnil, List.length_nil] at htx'
    omega
  | rx =>
    have hnil : t.rxAns = [] := by simpa [hph] using hr
    have hleft : 0 < t.left.rx := by
      rw [State.left_of_inAttempt (by rw [hph]; trivial), hph]
      simp only [attemptLeft, replyLeft_rx, Cost.plus]
      omega
    simp only [hnil, List.length_nil] at hrx'
    omega
  | backoff =>
    have hzero : t.ticks = 0 := by simpa [hph] using hr
    have hleft : 0 < t.left.waits := by
      rw [State.left_of_inAttempt (by rw [hph]; trivial), hph]
      simp only [attemptLeft, Cost.plus]
      omega
    omega
  | segPage | segSub | enc | dec | cls | judge | ret => simp [hph] at hr

/-- Settles O40: the answers cover what is left until the run has ended. -/
theorem answeredSessionsTerminate : Obligations.AnsweredSessionsTerminate := by
  unfold Obligations.AnsweredSessionsTerminate
  intro s htx hrx hticks
  have hle := enterPlane_left_le s
  have hkeep (u v : State) (hu : Underway u) (hr : u.atRest = false) (h : Covered s sessionCost u ∧ RunTrace s u)
      (ha : advance u = .next v) : Covered s sessionCost v ∧ RunTrace s v := by
    obtain ⟨v', ha', -, hpays⟩ := hu.advance_pays hr
    cases ha.symm.trans ha'
    exact ⟨h.1.pays hpays, hu.runTrace h.2 ha⟩
  have hstart : Covered s sessionCost (s.enterPlane 0) ∧ RunTrace s (s.enterPlane 0) := by
    refine ⟨?_, [], nofun, .inl ⟨nofun, rfl, by simp⟩⟩
    simp only [Covered, State.enterPlane_txAns, State.enterPlane_rxAns, State.enterPlane_ticks]
    omega
  obtain ⟨t, hd, hr, -, hcov, evs, hevs, hend⟩ := drive_ends hkeep (.inr (enterPlane_underway s)) hle.1 hstart
  have hidle : t.phase = .idle := hcov.idle hr htx hrx hticks
  obtain ⟨hrun, -⟩ | ⟨-, x, hx, htrace⟩ := hend
  · exact absurd hidle hrun
  simp only [Covered, sessionCost] at hcov
  refine ⟨t, x, hd, hidle, hx, ⟨evs, htrace, hevs⟩, ?_, ?_, ?_⟩ <;> omega

/-! ### RUN is its steps -/

/-- A drive is a number of steps of the machine, while the host presents nothing. -/
theorem drive_is_steps {n : Nat} {s t : State} (hin : s.inputs = []) (h : drive n s = .next t) :
    ∃ k, k ≤ n ∧ Host.Core.run core k s = .next t := by
  induction n generalizing s with
  | zero => exact ⟨0, le_refl 0, h⟩
  | succ n ih =>
    cases hr : s.atRest with
    | true => rw [drive_rest hr] at h; exact ⟨0, Nat.zero_le _, h⟩
    | false =>
      have hrun : s.phase ≠ .idle := by rintro hidle; simp [State.atRest, hidle] at hr
      have hstep : step s = advance s := step_quiet hin (State.benchWord_of_running (State.running_of_phase hrun))
      cases ha : advance s with
      | next u =>
        rw [drive_go hr ha] at h
        obtain ⟨k, hk, hrunk⟩ := ih ((advance_events ha).1.trans hin) h
        refine ⟨k + 1, by omega, ?_⟩
        have hcore : core.step s = .next u := hstep.trans ha
        simp only [Host.Core.run, hcore]
        exact hrunk
      | fault r => simp [drive, hr, ha] at h
      | refused r => exact absurd ha (advance_not_refused s r)

/-- Settles O42: RUN drives the phases that the machine's steps perform. -/
theorem runIsItsSteps : Obligations.RunIsItsSteps := by
  unfold Obligations.RunIsItsSteps
  exact fun s t hin h => drive_is_steps (s := s.enterPlane 0) hin h

end Sys2Proof.Machine
end

section
/-! PROOFS. One attempt, answered (R213 to R215): its frames are sent as far as the transport takes them, its reply is received,
decoded and classified, and the verdict is the one the answers give. From it the three step bodies. -/

namespace Sys2Proof.Machine

/-! ### Phases performed one after another -/

/-- At most `n` phases lead from `s` to `t`, and no operation waits among them. -/
def Leads (n : Nat) (s t : State) : Prop := ∃ m, m ≤ n ∧ ∀ k, drive (m + k) s = drive k t

theorem Leads.refl (s : State) : Leads 0 s s := ⟨0, le_refl 0, fun k => by rw [Nat.zero_add]⟩

theorem Leads.one {s t : State} (hr : s.atRest = false) (ha : advance s = .next t) : Leads 1 s t :=
  ⟨1, le_refl 1, fun k => by rw [Nat.add_comm]; exact drive_go hr ha k⟩

theorem Leads.trans {m n : Nat} {s t u : State} (h : Leads m s t) (h' : Leads n t u) : Leads (m + n) s u := by
  obtain ⟨i, hi, hd⟩ := h
  obtain ⟨j, hj, hd'⟩ := h'
  exact ⟨i + j, by omega, fun k => by rw [Nat.add_assoc, hd, hd']⟩

theorem Leads.mono {m n : Nat} {s t : State} (h : Leads m s t) (hn : m ≤ n) : Leads n s t := by
  obtain ⟨i, hi, hd⟩ := h
  exact ⟨i, by omega, hd⟩

/-- A drive that is led to rest ends there. -/
theorem Leads.drive_eq {n N : Nat} {s t : State} (h : Leads n s t) (ht : t.atRest = true) (hn : n ≤ N) :
    drive N s = .next t := by
  obtain ⟨i, hi, hd⟩ := h
  obtain ⟨k, rfl⟩ := Nat.exists_eq_add_of_le (le_trans hi hn)
  rw [hd, drive_rest ht]

/-! ### The verdict, by decoder and classifier (R213 to R215, R265) -/

/-- The verdict on a decoded reply: its cause if it does not decode, else what its fields make of the attempt. -/
def DecodeResult.verdict {α : Type} (v : α → AttemptResult) : DecodeResult α → AttemptResult
  | .ok f => v f
  | .err e => .retry e.cause

/-- The checks of `decode_common` with a marker, in R265's order. -/
theorem decodeCommon_verdict (b : List Byte) (n : Nat) (v : AttemptResult) :
    (decodeCommon b n true).verdict (fun _ => v) =
      if b.length ≠ n then .retry .length
      else if u16le b 0 ≠ 0x5A5A then .retry .magic
      else if u32le b (n - 4) ≠ 0x5A5A5F5F then .retry .endMarker
      else v := by
  simp only [decodeCommon, true_and]
  split_ifs <;> rfl

/-- The same without a marker. -/
theorem decodeCommon_verdict_noMarker (b : List Byte) (n : Nat) (v : AttemptResult) :
    (decodeCommon b n false).verdict (fun _ => v) =
      if b.length ≠ n then .retry .length else if u16le b 0 ≠ 0x5A5A then .retry .magic else v := by
  simp only [decodeCommon, Bool.false_eq_true, false_and, if_false]
  split_ifs <;> rfl

theorem startClass_attempt (st : Byte) : (startClassOf st).attempt =
    if st = 0x01 then .success else if st = 0x02 then .retry .startBusy else if st = 0xFF then .retry .startError
    else .retry .startUnrecognized := by
  unfold startClassOf
  split_ifs <;> rfl

theorem dataClass_attempt (st : Byte) : (dataClassOf st).attempt =
    if st = 0x00 then .success
    else if 0x10 ≤ st.toNat ∧ st.toNat ≤ 0x1F then .retry .pageCrc
    else if 0x20 ≤ st.toNat ∧ st.toNat ≤ 0x2F then .retry .pageMissing
    else if st = 0x30 then .retry .pageTimeout
    else .retry .statusUnknown := by
  have hok : st = 0x00 ↔ st.toNat = 0 := BitVec.toNat_inj.symm
  have htimeout : st = 0x30 ↔ st.toNat = 0x30 := BitVec.toNat_inj.symm
  have hcrc : st.toNat / 16 = 1 ↔ 0x10 ≤ st.toNat ∧ st.toNat ≤ 0x1F := by omega
  have hmissing : st.toNat / 16 = 2 ↔ 0x20 ≤ st.toNat ∧ st.toNat ≤ 0x2F := by omega
  simp only [dataClassOf_eq_toNat, hok, htimeout, hcrc, hmissing]
  split_ifs <;> rfl

theorem startVerdict_bytes (r : List Byte) :
    startVerdict (.bytes r) = (startReplyOf r).verdict fun f => (startClassOf f.status8).attempt := by
  have hreply : (startReplyOf r).verdict (fun f => (startClassOf f.status8).attempt) =
      (decodeCommon r 10 true).verdict fun _ => (startClassOf (byteAt r 4)).attempt := by
    unfold startReplyOf
    cases decodeCommon r 10 true <;> rfl
  rw [hreply, decodeCommon_verdict, startClass_attempt]
  rfl

theorem pageVerdict_bytes (r : List Byte) :
    pageVerdict (.bytes r) = (dataReplyOf r).verdict fun f => (dataClassOf f.status8).attempt := by
  have hreply : (dataReplyOf r).verdict (fun f => (dataClassOf f.status8).attempt) =
      (decodeCommon r 6 false).verdict fun _ => (dataClassOf (byteAt r 5)).attempt := by
    unfold dataReplyOf
    cases decodeCommon r 6 false <;> rfl
  rw [hreply, decodeCommon_verdict_noMarker, dataClass_attempt]
  rfl

theorem endVerdict_bytes (n : Config.EndLen) (r : List Byte) :
    endVerdict n (.bytes r) = (endReplyOf n r).verdict fun _ => .success := by
  have hreply : (endReplyOf n r).verdict (fun _ => .success) = (decodeCommon r n.bytes true).verdict fun _ => .success := by
    unfold endReplyOf
    cases decodeCommon r n.bytes true <;> rfl
  rw [hreply, decodeCommon_verdict]
  rfl

theorem DecodeErr.cause_ne_startBusy (e : DecodeErr) : AttemptResult.retry e.cause ≠ .retry .startBusy := by
  cases e <;> nofun

theorem dataClass_attempt_ne_startBusy (c : DataClass) : c.attempt ≠ .retry .startBusy := by cases c <;> nofun

theorem startClass_attempt_eq_startBusy {c : StartClass} : c.attempt = .retry .startBusy ↔ c = .busy := by
  cases c <;> simp [StartClass.attempt]

/-- A reply leads to its verdict by the decoder alone, by the classifier, or, when it says BUSY, through the wait. -/
theorem afterDecode_cases (n : Config.EndLen) (b : Body) (r : List Byte) {v : AttemptResult} (hv : verdict n b (.bytes r) = v) :
    (afterDecode n b r = .judge v ∧ v ≠ .retry .startBusy) ∨
    ∃ st, afterDecode n b r = .cls st ∧
      ((afterClass b st = .judge v ∧ v ≠ .retry .startBusy) ∨ (afterClass b st = .backoff ∧ b = .start ∧ v = .retry .startBusy)) := by
  subst hv
  cases b with
  | start =>
    simp only [verdict, startVerdict_bytes, afterDecode]
    cases startReplyOf r with
    | err e => exact .inl ⟨rfl, e.cause_ne_startBusy⟩
    | ok f =>
      refine .inr ⟨_, rfl, ?_⟩
      simp only [afterClass, DecodeResult.verdict]
      split
      next hbusy => exact .inr ⟨rfl, trivial, startClass_attempt_eq_startBusy.mpr hbusy⟩
      next hfree => exact .inl ⟨rfl, fun h => hfree (startClass_attempt_eq_startBusy.mp h)⟩
  | page =>
    simp only [verdict, pageVerdict_bytes, afterDecode, afterClass]
    cases dataReplyOf r with
    | err e => exact .inl ⟨rfl, e.cause_ne_startBusy⟩
    | ok f => exact .inr ⟨f.status8, rfl, .inl ⟨rfl, dataClass_attempt_ne_startBusy _⟩⟩
  | finish =>
    simp only [verdict, endVerdict_bytes, afterDecode]
    cases endReplyOf n r with
    | err e => exact .inl ⟨rfl, e.cause_ne_startBusy⟩
    | ok f => exact .inl ⟨rfl, nofun⟩

/-- Only a start-reply can be BUSY (R164, R220). -/
theorem verdict_ne_startBusy {b : Body} (hb : b ≠ .start) (n : Config.EndLen) (a : RxAnswer) :
    verdict n b a ≠ .retry .startBusy := by
  cases a with
  | err => cases b <;> nofun
  | bytes r =>
    obtain ⟨-, h⟩ | ⟨st, -, ⟨-, h⟩ | ⟨-, hstart, -⟩⟩ := afterDecode_cases n b r rfl
    · exact h
    · exact h
    · exact absurd hstart hb

/-! ### From the `Rx` to the verdict -/

/-- The last-reply registers after an answer of the step's `Rx` (R29, R161 to R163). -/
def State.noteAnswer (s : State) : RxAnswer → State
  | .err => s
  | .bytes r =>
    match s.body with
    | .start => s.noteStartReply (startReplyOf r)
    | .page => s.noteDataReply (dataReplyOf r)
    | .finish => s.noteEndReply (endReplyOf s.endLen r)

theorem State.noteAnswer_start {s : State} (h : s.body = .start) (r : List Byte) :
    s.noteAnswer (.bytes r) = s.noteStartReply (startReplyOf r) := by simp only [State.noteAnswer, h]

theorem State.noteAnswer_page {s : State} (h : s.body = .page) (r : List Byte) :
    s.noteAnswer (.bytes r) = s.noteDataReply (dataReplyOf r) := by simp only [State.noteAnswer, h]

theorem State.noteAnswer_finish {s : State} (h : s.body = .finish) (r : List Byte) :
    s.noteAnswer (.bytes r) = s.noteEndReply (endReplyOf s.endLen r) := by simp only [State.noteAnswer, h]

theorem Body.eq_cases (b : Body) : b = .start ∨ b = .page ∨ b = .finish := by cases b <;> simp

theorem State.noteAnswer_eq (s : State) (a : RxAnswer) : ∃ c st p sl,
    s.noteAnswer a = { s with lastCmd16 := c, lastStatus := st, lastPage := p, lastSlot16 := sl } := by
  cases a with
  | err => exact ⟨_, _, _, _, rfl⟩
  | bytes r =>
    obtain hb | hb | hb := Body.eq_cases s.body
    · rw [State.noteAnswer_start hb]; cases startReplyOf r <;> exact ⟨_, _, _, _, rfl⟩
    · rw [State.noteAnswer_page hb]; cases dataReplyOf r <;> exact ⟨_, _, _, _, rfl⟩
    · rw [State.noteAnswer_finish hb]; cases endReplyOf s.endLen r <;> exact ⟨_, _, _, _, rfl⟩

/-- What is noted depends on the step, the configuration and the registers noted in. -/
theorem State.noteAnswer_congr {s t : State} (hr : SameReply s t) (hb : t.body = s.body) (hn : t.endLen = s.endLen)
    (a : RxAnswer) : SameReply (s.noteAnswer a) (t.noteAnswer a) := by
  cases a with
  | err => exact hr
  | bytes r =>
    obtain ⟨hcmd, hst, hp, hsl⟩ := hr
    cases hs : s.body with
    | start =>
      rw [State.noteAnswer_start hs, State.noteAnswer_start (hb.trans hs)]
      cases startReplyOf r <;> simp [SameReply, hcmd, hst, hp, hsl]
    | page =>
      rw [State.noteAnswer_page hs, State.noteAnswer_page (hb.trans hs)]
      cases dataReplyOf r <;> simp [SameReply, hcmd, hst, hp, hsl]
    | finish =>
      rw [State.noteAnswer_finish hs, State.noteAnswer_finish (hb.trans hs), hn]
      cases endReplyOf s.endLen r <;> simp [SameReply, hcmd, hst, hp, hsl]

theorem advance_dec_notes {s : State} (h : s.phase = .dec) : ∃ res, advance s = .next
    (((s.noteAnswer (.bytes s.rxBytes)).returns res).atPhase (afterDecode s.endLen s.body s.rxBytes)) := by
  cases hb : s.body with
  | start => exact ⟨_, by rw [State.noteAnswer_start hb]; exact advance_dec_start h hb⟩
  | page => exact ⟨_, by rw [State.noteAnswer_page hb]; exact advance_dec_page h hb⟩
  | finish => exact ⟨_, by rw [State.noteAnswer_finish hb]; exact advance_dec_finish h hb⟩

/-- The elapsed units a verdict has cost, and the events of its wait (R220). -/
def busyUnits (v : AttemptResult) : Nat := if v = .retry .startBusy then 1 else 0

def busyEvents (v : AttemptResult) : List Event := if v = .retry .startBusy then [.waitUnit] else []

/-- The phases from a step's `Rx` to its verdict, at most. -/
def replyPhases : Body → Nat
  | .start => 4
  | .page | .finish => 3

/-- A received reply is decoded and classified, and after BUSY one unit is waited for (R213 to R215, R220). -/
theorem dec_leads {s : State} {v : AttemptResult} (hph : s.phase = .dec)
    (hv : verdict s.endLen s.body (.bytes s.rxBytes) = v) (hw : busyUnits v ≤ s.ticks) :
    ∃ res, Leads (replyPhases s.body - 1) s { s.noteAnswer (.bytes s.rxBytes) with
      result := res, ticks := s.ticks - busyUnits v, trace := s.trace ++ busyEvents v, phase := .judge v } := by
  obtain ⟨res, hd⟩ := advance_dec_notes hph
  obtain ⟨c, st, p, sl, hnote⟩ := s.noteAnswer_eq (.bytes s.rxBytes)
  rw [hnote] at hd ⊢
  have hdec := Leads.one (by simp [State.atRest, hph]) hd
  have hfree (h : v ≠ .retry .startBusy) : busyUnits v = 0 ∧ busyEvents v = [] := ⟨if_neg h, if_neg h⟩
  obtain ⟨hj, hne⟩ | ⟨st, hcls, hnext⟩ := afterDecode_cases s.endLen s.body s.rxBytes hv
  · obtain ⟨hu, he⟩ := hfree hne
    rw [hj] at hdec
    refine ⟨res, ?_⟩
    rw [hu, he, List.append_nil]
    exact hdec.mono (by cases s.body <;> decide)
  · rw [hcls] at hdec
    obtain ⟨k, hk⟩ := advance_cls (st := st) (s := State.atPhase (State.returns _ res) (.cls st)) rfl
    obtain ⟨hj, hne⟩ | ⟨hback, hb, rfl⟩ := hnext
    · obtain ⟨hu, he⟩ := hfree hne
      refine ⟨k, ?_⟩
      rw [hu, he, List.append_nil]
      have hclass := hdec.trans (.one rfl hk)
      simp only [State.atPhase_body, State.returns_body, hj] at hclass
      exact hclass.mono (by cases s.body <;> decide)
    · obtain ⟨n, hn⟩ := Nat.exists_eq_succ_of_ne_zero (show s.ticks ≠ 0 from fun h0 => by simp [busyUnits, h0] at hw)
      refine ⟨k, ?_⟩
      have hclass := hdec.trans (.one rfl hk)
      simp only [State.atPhase_body, State.returns_body, hback] at hclass
      have hwait := hclass.trans (.one (by simp [State.atRest, hn]) (advance_backoff_succ (n := n) rfl hn))
      simp only [State.emit, State.atPhase, State.returns] at hwait
      have hu : busyUnits (.retry .startBusy) = 1 := rfl
      have he : busyEvents (.retry .startBusy) = [.waitUnit] := rfl
      rw [hu, he, hn, Nat.succ_sub_one]
      exact hwait.mono (by rw [hb]; decide)

/-- The bytes an answer delivers into `rx_buf` (R33). -/
def RxAnswer.delivered : RxAnswer → List Byte
  | .bytes b => b
  | .err => []

/-- What an attempt leaves alone: the session but for the place inside the attempt, the image, and what the host presents. -/
structure AttemptFrame (s t : State) : Prop where
  session : SameSession s t
  image : SameImage s t
  inputs : t.inputs = s.inputs
  bench : t.bench = s.bench

/-- From the `Rx` of a step to its verdict `v`: one answer is used, `a` of it delivered (log 3), its event emitted, its fields
noted, and the reply judged. -/
structure ReplyTaken (s : State) (a : RxAnswer) (v : AttemptResult) (t : State) : Prop where
  frame : AttemptFrame s t
  page : SamePage s t
  sub : t.sub = s.sub
  sent : t.txFrame = s.txFrame
  txAns : t.txAns = s.txAns
  rxAns : t.rxAns = s.rxAns.tail
  received : t.rxBytes = a.delivered
  reply : SameReply (s.noteAnswer a) t
  ticks : t.ticks = s.ticks - busyUnits v
  trace : t.trace = s.trace ++ [.rx (replyBytes s.endLen s.body) a] ++ busyEvents v
  phase : t.phase = .judge v

theorem rx_leads {s : State} {a : RxAnswer} {ra : List RxAnswer} {v : AttemptResult} (hph : s.phase = .rx)
    (hans : s.rxAns = a :: ra) (hv : verdict s.endLen s.body (a.upTo (replyBytes s.endLen s.body)) = v)
    (hw : busyUnits v ≤ s.ticks) :
    ∃ t, Leads (replyPhases s.body) s t ∧ ReplyTaken s (a.upTo (replyBytes s.endLen s.body)) v t := by
  have hrx := Leads.one (by simp [State.atRest, hph, hans]) ((advance_rx hph).trans (congrArg _ (State.request_cons hans _ _)))
  have hbytes (b : List Byte) : (State.putReply { s with rxAns := ra } b).rxBytes = b.take 10 := State.putReply_rxBytes _ b
  have hle : replyBytes s.endLen s.body ≤ 10 := replyBytes_le s.endLen s.body
  have htail : ra = s.rxAns.tail := by rw [hans]; rfl
  cases a with
  | err =>
    obtain rfl : v = .retry .transport := by subst hv; cases s.body <;> rfl
    have hevents : busyEvents (.retry .transport) = [] := rfl
    refine ⟨_, hrx.mono (by cases s.body <;> decide), ⟨.refl s, .refl s, rfl, rfl⟩, ⟨rfl, rfl, rfl, rfl, rfl⟩, rfl, rfl, rfl, htail,
      hbytes [], .refl s, rfl, ?_, rfl⟩
    rw [hevents, List.append_nil]
    rfl
  | bytes b =>
    obtain ⟨u, hu⟩ : ∃ u : State, u = { State.putReply { s with rxAns := ra } (b.take (replyBytes s.endLen s.body)) with
      phase := .dec
      trace := s.trace ++ [.rx (replyBytes s.endLen s.body) (.bytes (b.take (replyBytes s.endLen s.body)))] } := ⟨_, rfl⟩
    have hrx : Leads 1 s u := by rw [hu]; exact hrx
    have hrec : u.rxBytes = b.take (replyBytes s.endLen s.body) := by
      rw [hu]
      exact (hbytes _).trans (List.take_of_length_le (le_trans (List.length_take_le _ _) hle))
    obtain ⟨res, hdec⟩ := dec_leads (v := v) (s := u) (by rw [hu]) (by rw [hrec, ← hv, hu]; rfl) (by rw [hu]; exact hw)
    have hreply : SameReply (s.noteAnswer (.bytes u.rxBytes)) (u.noteAnswer (.bytes u.rxBytes)) :=
      State.noteAnswer_congr (by rw [hu]; exact .refl s) (by rw [hu]; rfl) (by rw [hu]; rfl) _
    obtain ⟨c, st, p, sl, hnote⟩ := u.noteAnswer_eq (.bytes u.rxBytes)
    rw [hnote] at hdec hreply
    rw [hrec] at hreply
    have hbody : u.body = s.body := by rw [hu]; rfl
    refine ⟨_, (hrx.trans hdec).mono (by rw [hbody]; cases s.body <;> decide), ?_⟩
    clear hdec hrx hnote hbody
    subst hu
    exact ⟨⟨.refl s, .refl s, rfl, rfl⟩, ⟨rfl, rfl, rfl, rfl, rfl⟩, rfl, rfl, rfl, htail, hrec, hreply, rfl, rfl, rfl⟩

/-! ### From the first phase to the last `Tx` -/

/-- The frames an attempt of the step sends, in order (R213 to R215). -/
def State.attemptFrames (s : State) : List (List Byte) :=
  match s.body with
  | .start => [startFrame s.plane s.slot]
  | .page => pageFrames s.img s.slot s.plane s.page
  | .finish => [endFrameBytes s.slot]

/-- The state with SEG.PAGE executed, in a page step. -/
def State.loaded (s : State) : State :=
  match s.body with
  | .start | .finish => s
  | .page => s.loadPage s.plane s.page

theorem State.loaded_page {s : State} (hb : s.body = .page) : s.loaded = s.loadPage s.plane s.page := by
  simp only [State.loaded, hb]

theorem State.loaded_of_ne {s : State} (hb : s.body ≠ .page) : s.loaded = s := by
  unfold State.loaded
  split
  · rfl
  · rfl
  · contradiction

/-- `sub` after an attempt (R214). -/
def State.subAfter (s : State) : Sub := if s.body = .page then 0 else s.sub

theorem State.subAfter_page {s : State} (h : s.body = .page) : s.subAfter = 0 := if_pos h

/-- Where an answered last `Tx` leads. -/
def afterLastTx : TxAnswer → Phase
  | .ok => .rx
  | .err => .judge (.retry .transport)

/-- What sending does, `evs` being its `Tx` events and `rest` the answers not used. -/
structure Sends (s : State) (evs : List Event) (rest : List TxAnswer) (t : State) : Prop where
  frame : AttemptFrame s t
  page : SamePage s t
  received : t.rxBuf = s.rxBuf ∧ t.rxLen = s.rxLen
  reply : SameReply s t
  txAns : t.txAns = rest
  rxAns : t.rxAns = s.rxAns
  ticks : t.ticks = s.ticks
  trace : t.trace = s.trace ++ evs

theorem SamePosition.trans {s t u : State} (h : SamePosition s t) (h' : SamePosition t u) : SamePosition s u := by
  obtain ⟨h1, h2, h3, h4, h5⟩ := h
  obtain ⟨h1', h2', h3', h4', h5'⟩ := h'
  exact ⟨h1'.trans h1, h2'.trans h2, h3'.trans h3, h4'.trans h4, h5'.trans h5⟩

theorem SameReport.trans {s t u : State} (h : SameReport s t) (h' : SameReport t u) : SameReport s u := by
  obtain ⟨h1, h2, h3, h4⟩ := h
  obtain ⟨h1', h2', h3', h4'⟩ := h'
  exact ⟨h1'.trans h1, h2'.trans h2, h3'.trans h3, h4'.trans h4⟩

theorem SameReply.trans {s t u : State} (h : SameReply s t) (h' : SameReply t u) : SameReply s u := by
  obtain ⟨h1, h2, h3, h4⟩ := h
  obtain ⟨h1', h2', h3', h4'⟩ := h'
  exact ⟨h1'.trans h1, h2'.trans h2, h3'.trans h3, h4'.trans h4⟩

theorem SamePage.trans {s t u : State} (h : SamePage s t) (h' : SamePage t u) : SamePage s u := by
  obtain ⟨h1, h2, h3, h4, h5⟩ := h
  obtain ⟨h1', h2', h3', h4', h5'⟩ := h'
  exact ⟨h1'.trans h1, h2'.trans h2, h3'.trans h3, h4'.trans h4, h5'.trans h5⟩

theorem SameSession.trans {s t u : State} (h : SameSession s t) (h' : SameSession t u) : SameSession s u := by
  obtain ⟨hpos, hrep, h1, h2, h3⟩ := h
  obtain ⟨hpos', hrep', h1', h2', h3'⟩ := h'
  exact ⟨hpos.trans hpos', hrep.trans hrep', h1'.trans h1, h2'.trans h2, h3'.trans h3⟩

theorem AttemptFrame.trans {s t u : State} (h : AttemptFrame s t) (h' : AttemptFrame t u) : AttemptFrame s u :=
  ⟨h.session.trans h'.session, h.image.trans h'.image, h'.inputs.trans h.inputs, h'.bench.trans h.bench⟩

theorem AttemptFrame.body {s t : State} (h : AttemptFrame s t) : t.body = s.body := by
  obtain ⟨⟨-, -, -, hbody, -⟩, -⟩ := h
  exact hbody

theorem AttemptFrame.scope {s t : State} (h : AttemptFrame s t) : t.scope = s.scope := by
  obtain ⟨⟨-, -, -, -, hscope⟩, -⟩ := h
  exact hscope

theorem AttemptFrame.endLen {s t : State} (h : AttemptFrame s t) : t.endLen = s.endLen := by
  obtain ⟨-, ⟨-, hend⟩, -⟩ := h
  exact hend

theorem Sends.trans {s t u : State} {e e' : List Event} {r r' : List TxAnswer} (h : Sends s e r t) (h' : Sends t e' r' u) :
    Sends s (e ++ e') r' u where
  frame := h.frame.trans h'.frame
  page := h.page.trans h'.page
  received := ⟨h'.received.1.trans h.received.1, h'.received.2.trans h.received.2⟩
  reply := h.reply.trans h'.reply
  txAns := h'.txAns
  rxAns := h'.rxAns.trans h.rxAns
  ticks := h'.ticks.trans h.ticks
  trace := by rw [h'.trace, h.trace, List.append_assoc]

/-- A frame built and sent. -/
def State.sent (s : State) (f : List Byte) (a : TxAnswer) (rest : List TxAnswer) : State :=
  { s.putFrame f with txAns := rest, trace := s.trace ++ [.tx f a] }

theorem State.sent_txFrame (s : State) {f : List Byte} (h : f.length ≤ 64) (a : TxAnswer) (rest : List TxAnswer) :
    (s.sent f a rest).txFrame = f := s.putFrame_txFrame h

/-- One frame built and sent, whatever was returned before. -/
theorem sent_sends (s : State) {f : List Byte} (h : f.length ≤ 64) (r : Result) (a : TxAnswer) (rest : List TxAnswer) :
    Sends s [.tx f a] rest (((s.returns r).sent f a rest).afterTx a) ∧
    (((s.returns r).sent f a rest).afterTx a).txFrame = f := by
  obtain ⟨k, p, heq, -⟩ := ((s.returns r).sent f a rest).afterTx_eq a
  rw [heq]
  exact ⟨⟨⟨.refl s, .refl s, rfl, rfl⟩, ⟨rfl, rfl, rfl, rfl, rfl⟩, ⟨rfl, rfl⟩, .refl s, rfl, rfl, rfl, rfl⟩,
    State.sent_txFrame (s.returns r) h a rest⟩

/-- Where the last answered `Tx` of an attempt leads. -/
theorem afterTx_last {s : State} (a : TxAnswer) (h : a = .ok → ¬(s.body = .page ∧ s.sub.toNat < 5)) :
    (s.afterTx a).phase = afterLastTx a ∧ (s.afterTx a).sub = s.subAfter := by
  cases a with
  | err => simp [State.afterTx, State.leaveSubs_eq, afterLastTx, State.subAfter]
  | ok => simp [State.afterTx, State.leaveSubs_eq, afterLastTx, State.subAfter, h rfl]

/-- The phase in which a `Tx` was answered is not looked at. -/
theorem State.afterTx_atPhase (s : State) (p : Phase) (a : TxAnswer) : (s.atPhase p).afterTx a = s.afterTx a := by
  cases a with
  | err => simp only [State.afterTx, State.leaveSubs_eq]; rfl
  | ok =>
    simp only [State.afterTx, State.leaveSubs_eq, State.atPhase_body, State.atPhase_sub]
    split <;> rfl

/-- The encoder and the `Tx` of its frame. -/
theorem enc_leads {s : State} {p f : List Byte} {a : TxAnswer} {rest : List TxAnswer} (hph : s.phase = .enc p)
    (hf : encodeOf s.body p s = .next (s.putFrame f)) (hlen : f.length ≤ 64) (hans : s.txAns = a :: rest) :
    Leads 2 s ((s.sent f a rest).afterTx a) := by
  have henc : advance s = .next ((s.putFrame f).atPhase .tx) := by simp only [advance, hph, hf, onNext_next]
  have hframe : ((s.putFrame f).atPhase .tx).txFrame = f := s.putFrame_txFrame hlen
  have htx : advance ((s.putFrame f).atPhase .tx) = .next (((s.sent f a rest).atPhase .tx).afterTx a) := by
    have hcons := State.transmit_cons (s := (s.putFrame f).atPhase .tx) hans State.afterTx
    rw [advance_tx rfl, hcons, hframe]
    rfl
  rw [State.afterTx_atPhase] at htx
  exact (Leads.one (by simp [State.atRest, hph]) henc).trans (.one (by simp [State.atRest, hans]) htx)

/-! #### The sub-frames of a page (R214) -/

/-- The DATA frame of sub-frame `k` of the current page. -/
def State.subFrame (s : State) (k : Sub) : List Byte :=
  dataFrame s.plane s.slot s.page k
    (subPayload (pageImage s.img s.plane s.page) (checksum (pageData s.img s.plane s.page)) k)

/-- One sub-frame cut, built and sent. -/
theorem segSub_leads {s : State} {a : TxAnswer} {rest : List TxAnswer} (hph : s.phase = .segSub) (hb : s.body = .page)
    (hk : subOk s.sub = true) (hheld : s.PageHeld) (hans : s.txAns = a :: rest) :
    ∃ r, Leads 3 s (((s.returns r).sent (s.subFrame s.sub) a rest).afterTx a) := by
  refine ⟨.bytes (s.payload s.sub), ?_⟩
  have hseg := Leads.one (by simp [State.atRest, hph]) (advance_segSub hph hk)
  have hframe : State.dueFrame ((s.returns (.bytes (s.payload s.sub))).atPhase (.enc (s.payload s.sub))) = s.subFrame s.sub := by
    simp only [State.dueFrame, State.atPhase_body, State.returns_body, hb]
    rfl
  have henc := encodeOf_dueFrame (s := (s.returns (.bytes (s.payload s.sub))).atPhase (.enc (s.payload s.sub)))
    (p := s.payload s.sub) fun _ => ⟨hheld, rfl⟩
  rw [hframe] at henc
  have hsend := hseg.trans (enc_leads rfl henc (dataFrame_length _ _ _ _ _).le hans)
  have hsame : State.sent ((s.returns (.bytes (s.payload s.sub))).atPhase (.enc (s.payload s.sub))) (s.subFrame s.sub) a rest =
    (State.sent (s.returns (.bytes (s.payload s.sub))) (s.subFrame s.sub) a rest).atPhase (.enc (s.payload s.sub)) := rfl
  rwa [hsame, State.afterTx_atPhase] at hsend

/-- The events of the sub-frames from `k` on, `j` of them sent. -/
def State.subEvents (s : State) (k j : Nat) : List Event :=
  (List.range' k j).map fun i => .tx (s.subFrame (BitVec.ofNat 3 i)) .ok

/-- The frame of a sub-frame depends on the position and the image alone. -/
theorem AttemptFrame.subFrame {s t : State} (h : AttemptFrame s t) (k : Sub) : t.subFrame k = s.subFrame k := by
  obtain ⟨⟨⟨-, hplane, hpage, -, hslot⟩, -⟩, ⟨himg, -⟩, -, -⟩ := h
  simp only [State.subFrame, hplane, hpage, hslot, himg]

theorem Sends.pageHeld {s t : State} {e : List Event} {r : List TxAnswer} (h : Sends s e r t) (hs : s.PageHeld) : t.PageHeld := by
  obtain ⟨⟨⟨⟨-, hplane, hpage, -, -⟩, -⟩, ⟨himg, -⟩, -, -⟩, ⟨hbuf, -, hcrc, -, -⟩, -, -, -, -, -, -⟩ := h
  rwa [State.PageHeld, hbuf, hcrc, himg, hplane, hpage]

/-- Sub-frames sent one after another, none of them the last. -/
theorem subs_lead {j : Nat} {s : State} {rest : List TxAnswer} (hph : s.phase = .segSub) (hb : s.body = .page)
    (hlo : 1 ≤ s.sub.toNat) (hhi : s.sub.toNat + j ≤ 5) (hheld : s.PageHeld) (hans : s.txAns = List.replicate j .ok ++ rest) :
    ∃ t, Leads (3 * j) s t ∧ Sends s (s.subEvents s.sub.toNat j) rest t ∧ t.phase = .segSub ∧
      t.sub.toNat = s.sub.toNat + j := by
  induction j generalizing s with
  | zero =>
    exact ⟨s, .refl s, ⟨⟨.refl s, .refl s, rfl, rfl⟩, ⟨rfl, rfl, rfl, rfl, rfl⟩, ⟨rfl, rfl⟩, .refl s, hans, rfl, rfl,
      by simp [State.subEvents]⟩, hph, rfl⟩
  | succ j ih =>
    have hans' : s.txAns = .ok :: (List.replicate j .ok ++ rest) := hans
    obtain ⟨r, hlead⟩ := segSub_leads hph hb (subOk_eq_true hlo (by omega)) hheld hans'
    obtain ⟨hsends, -⟩ := sent_sends s (f := s.subFrame s.sub) (dataFrame_length _ _ _ _ _).le r .ok (List.replicate j .ok ++ rest)
    have hmore : s.body = .page ∧ s.sub.toNat < 5 := ⟨hb, by omega⟩
    have hnext : ((s.returns r).sent (s.subFrame s.sub) .ok (List.replicate j .ok ++ rest)).afterTx .ok =
        { (s.returns r).sent (s.subFrame s.sub) .ok (List.replicate j .ok ++ rest) with sub := s.sub + 1, phase := .segSub } :=
      if_pos hmore
    have hsub : (s.sub + 1).toNat = s.sub.toNat + 1 := by bv_omega
    obtain ⟨u, hu⟩ : ∃ u, u = ((s.returns r).sent (s.subFrame s.sub) .ok (List.replicate j .ok ++ rest)).afterTx .ok := ⟨_, rfl⟩
    rw [← hu] at hlead hsends hnext
    have husub : u.sub.toNat = s.sub.toNat + 1 := by rw [hnext]; exact hsub
    obtain ⟨t, ht, hst, hpht, hsubt⟩ := ih (s := u) (by rw [hnext]) (by rw [hnext]; exact hb) (by omega) (by omega)
      (hsends.pageHeld hheld) hsends.txAns
    refine ⟨t, (hlead.trans ht).mono (by omega), ?_, hpht, by omega⟩
    have hevents : s.subEvents s.sub.toNat (j + 1) = [.tx (s.subFrame s.sub) .ok] ++ u.subEvents u.sub.toNat j := by
      simp only [State.subEvents, List.range'_succ, List.map_cons, hsends.frame.subFrame, husub, BitVec.ofNat_toNat,
        BitVec.setWidth_eq, List.singleton_append]
    rw [hevents]
    exact hsends.trans hst

/-- The phases from the first to the last `Tx` of an attempt, at most. -/
def sendPhases : Body → Nat
  | .page => 16
  | .start | .finish => 2

theorem State.attemptFrames_page {s : State} (hb : s.body = .page) :
    s.attemptFrames = (List.range' 1 5).map fun i => s.subFrame (BitVec.ofNat 3 i) := by
  simp only [State.attemptFrames, hb]
  rfl

/-- The events of the first `j` sub-frames. -/
theorem State.subEvents_one {s : State} (hb : s.body = .page) {j : Nat} (hj : j < 5) :
    s.subEvents 1 j = (s.attemptFrames.take j).map fun f => .tx f .ok := by
  rw [State.attemptFrames_page hb]
  interval_cases j <;> rfl

theorem State.attemptFrames_page_get {s : State} (hb : s.body = .page) {j : Nat} {f : List Byte}
    (hf : s.attemptFrames[j]? = some f) : j < 5 ∧ f = s.subFrame (BitVec.ofNat 3 (1 + j)) := by
  rw [State.attemptFrames_page hb, List.getElem?_map, Option.map_eq_some_iff] at hf
  obtain ⟨i, hi, rfl⟩ := hf
  obtain ⟨hj, hget⟩ := List.getElem?_eq_some_iff.mp hi
  rw [List.length_range'] at hj
  rw [← hget, List.getElem_range', Nat.one_mul]
  exact ⟨hj, rfl⟩

/-- SEG.PAGE, the first phase of a page attempt. -/
theorem segPage_leads {s : State} (hph : s.phase = .segPage) (hb : s.body = .page) (hp : pageOk s.page = true) :
    Leads 1 s { s.loaded with sub := 1, phase := .segSub } := by
  rw [State.loaded_page hb]
  exact .one (by simp [State.atRest, hph]) (advance_segPage hph hp)

/-- A page attempt sends its sub-frames up to the one whose `Tx` fails, or all five (R214). -/
theorem page_frames_lead {s : State} {j : Nat} {a : TxAnswer} {f : List Byte} {rest : List TxAnswer}
    (hph : s.phase = .segPage) (hb : s.body = .page) (hp : pageOk s.page = true) (hf : s.attemptFrames[j]? = some f)
    (hlast : a = .ok → j + 1 = 5) (hans : s.txAns = List.replicate j .ok ++ a :: rest) :
    ∃ t, Leads 16 s t ∧
      Sends s.loaded ((s.attemptFrames.take j).map (fun f => .tx f .ok) ++ [.tx f a]) rest t ∧
      t.txFrame = f ∧ t.phase = afterLastTx a ∧ t.sub = s.subAfter := by
  obtain ⟨hj, rfl⟩ := State.attemptFrames_page_get hb hf
  have hload := segPage_leads hph hb hp
  rw [State.loaded_page hb] at hload ⊢
  obtain ⟨u, hu⟩ : ∃ u : State, u = { s.loadPage s.plane s.page with sub := 1, phase := .segSub } := ⟨_, rfl⟩
  rw [← hu] at hload
  have hsame : Sends (s.loadPage s.plane s.page) [] s.txAns u := by
    rw [hu]
    exact ⟨⟨.refl _, .refl _, rfl, rfl⟩, ⟨rfl, rfl, rfl, rfl, rfl⟩, ⟨rfl, rfl⟩, .refl _, rfl, rfl, rfl, by simp⟩
  have hbu : u.body = .page := by rw [hu]; exact hb
  have husub : u.sub.toNat = 1 := by rw [hu]; rfl
  obtain ⟨t, ht, hst, hpht, hsubt⟩ := subs_lead (s := u) (j := j) (by rw [hu]) hbu (by omega) (by omega)
    (hsame.pageHeld (loadPage_pageHeld s)) (hsame.txAns.trans hans)
  have hbt : t.body = .page := hst.frame.body.trans hbu
  obtain ⟨r, hlead⟩ := segSub_leads hpht hbt (subOk_eq_true (by omega) (by omega))
    (hst.pageHeld (hsame.pageHeld (loadPage_pageHeld s))) hst.txAns
  obtain ⟨hsends, hframe⟩ := sent_sends t (f := t.subFrame t.sub) (dataFrame_length _ _ _ _ _).le r a rest
  obtain ⟨hpha, hsuba⟩ := afterTx_last (s := (t.returns r).sent (t.subFrame t.sub) a rest) a
    fun ha h => by have h5 := h.2; have := hlast ha; change t.sub.toNat < 5 at h5; omega
  have hframes := (hsame.trans hst).frame
  have htsub : t.sub = BitVec.ofNat 3 (1 + j) := by rw [← husub, ← hsubt, BitVec.ofNat_toNat, BitVec.setWidth_eq]
  have hft : t.subFrame t.sub = s.subFrame (BitVec.ofNat 3 (1 + j)) := by rw [hframes.subFrame, htsub]; rfl
  have hevents : u.subEvents u.sub.toNat j = (s.attemptFrames.take j).map fun f => .tx f .ok := by
    rw [husub, ← State.subEvents_one hb hj]
    simp only [State.subEvents, hsame.frame.subFrame]
    rfl
  have hall := (hsame.trans hst).trans hsends
  rw [hft] at hlead hframe hpha hsuba hall
  rw [hevents, List.nil_append] at hall
  refine ⟨_, ((hload.trans ht).trans hlead).mono (by omega), hall, hframe, hpha, hsuba.trans ?_⟩
  exact (State.subAfter_page hbt).trans (State.subAfter_page hb).symm

/-- An attempt sends its frames up to the one whose `Tx` fails, or all of them (R213 to R215). -/
theorem frames_lead {s : State} {j : Nat} {a : TxAnswer} {f : List Byte} {rest : List TxAnswer}
    (hph : s.phase = firstPhase s.body) (hpage : s.body = .page → pageOk s.page = true)
    (hf : s.attemptFrames[j]? = some f) (hlast : a = .ok → j + 1 = frameCount s.body)
    (hans : s.txAns = List.replicate j .ok ++ a :: rest) :
    ∃ t, Leads (sendPhases s.body) s t ∧
      Sends s.loaded ((s.attemptFrames.take j).map (fun f => .tx f .ok) ++ [.tx f a]) rest t ∧
      t.txFrame = f ∧ t.phase = afterLastTx a ∧ t.sub = s.subAfter := by
  have hone {p g : List Byte} (hph : s.phase = .enc p) (hg : s.attemptFrames = [g])
      (henc : encodeOf s.body p s = .next (s.putFrame g)) (hlen : g.length ≤ 64) (hb : s.body ≠ .page) :
      ∃ t, Leads 2 s t ∧ Sends s.loaded ((s.attemptFrames.take j).map (fun f => .tx f .ok) ++ [.tx f a]) rest t ∧
        t.txFrame = f ∧ t.phase = afterLastTx a ∧ t.sub = s.subAfter := by
    rw [hg, List.getElem?_singleton] at hf
    obtain ⟨rfl, rfl⟩ : j = 0 ∧ g = f := by simpa using hf
    obtain ⟨hsends, hframe⟩ := sent_sends s hlen s.result a rest
    obtain ⟨hpht, hsub⟩ := afterTx_last (s := (s.returns s.result).sent g a rest) a fun _ h => hb h.1
    exact ⟨_, enc_leads hph henc hlen hans, by rw [State.loaded_of_ne hb]; exact hsends, hframe, hpht, hsub⟩
  obtain hb | hb | hb := Body.eq_cases s.body
  · have hg : s.attemptFrames = [startFrame s.plane s.slot] := by simp only [State.attemptFrames, hb]
    rw [hb]
    exact hone (by rw [hph, hb]; rfl) hg (by rw [hb]; rfl) (by simp) (by simp [hb])
  · rw [hb]
    rw [hb] at hph hlast
    exact page_frames_lead hph hb (hpage hb) hf hlast hans
  · have hg : s.attemptFrames = [endFrameBytes s.slot] := by simp only [State.attemptFrames, hb]
    rw [hb]
    exact hone (by rw [hph, hb]; rfl) hg (by rw [hb]; rfl) (by simp) (by simp [hb])

/-! ### A whole attempt -/

/-- The frame an attempt so answered sends last. -/
def Exchange.lastFrame (b : Body) : Exchange → Nat
  | .txErr j => j
  | .reply _ => frameCount b - 1

/-- The events of an attempt so answered (R9, R213 to R215). -/
def State.exchangeEvents (s : State) : Exchange → List Event
  | .txErr j =>
    (s.attemptFrames.take j).map (fun f => .tx f .ok) ++ ((s.attemptFrames.drop j).take 1).map fun f => .tx f .err
  | .reply a =>
    s.attemptFrames.map (fun f => .tx f .ok) ++ [.rx (replyBytes s.endLen s.body) (a.upTo (replyBytes s.endLen s.body))] ++
      busyEvents (verdict s.endLen s.body (a.upTo (replyBytes s.endLen s.body)))

/-- The last-reply registers after an attempt so answered. -/
def State.noteExchange (s : State) : Exchange → State
  | .txErr _ => s
  | .reply a => s.noteAnswer (a.upTo (replyBytes s.endLen s.body))

/-- What `rx_buf` holds after an attempt so answered: the delivered bytes, or what it held. -/
def Exchange.Received (s t : State) : Exchange → Prop
  | .txErr _ => t.rxBuf = s.rxBuf ∧ t.rxLen = s.rxLen
  | .reply a => t.rxBytes = (a.upTo (replyBytes s.endLen s.body)).delivered

/-- An attempt, answered by `e`, from its first phase in `s` to RETRY's test in `t`; `ta` and `ra` are the answers not used. -/
structure Attempted (s : State) (e : Exchange) (ta : List TxAnswer) (ra : List RxAnswer) (t : State) : Prop where
  frame : AttemptFrame s t
  page : SamePage s.loaded t
  sub : t.sub = s.subAfter
  received : e.Received s t
  reply : SameReply (s.noteExchange e) t
  txFrame : s.attemptFrames[e.lastFrame s.body]? = some t.txFrame
  txAns : t.txAns = ta
  rxAns : t.rxAns = ra
  ticks : t.ticks = s.ticks - busyUnits (e.verdict s.endLen s.body)
  trace : t.trace = s.trace ++ s.exchangeEvents e
  phase : t.phase = .judge (e.verdict s.endLen s.body)

/-- SEG.PAGE moves the page registers and the checksum engine alone (R191). -/
theorem State.loaded_eq (s : State) : ∃ pb pl pc cr ci,
    s.loaded = { s with pageBuf := pb, pageLen := pl, pageCrc := pc, crcReg := cr, crcInit := ci } := by
  by_cases hb : s.body = .page
  · rw [State.loaded_page hb]
    exact ⟨_, _, _, _, _, rfl⟩
  · rw [State.loaded_of_ne hb]
    exact ⟨_, _, _, _, _, rfl⟩

/-- Before SEG.PAGE the same is left alone. -/
theorem Sends.of_loaded {s t : State} {e : List Event} {r : List TxAnswer} (h : Sends s.loaded e r t) :
    AttemptFrame s t ∧ (t.rxBuf = s.rxBuf ∧ t.rxLen = s.rxLen) ∧ SameReply s t ∧ t.rxAns = s.rxAns ∧ t.ticks = s.ticks ∧
    t.trace = s.trace ++ e := by
  obtain ⟨pb, pl, pc, cr, ci, hl⟩ := s.loaded_eq
  rw [hl] at h
  exact ⟨⟨h.frame.session, h.frame.image, h.frame.inputs, h.frame.bench⟩, h.received, h.reply, h.rxAns, h.ticks, h.trace⟩

theorem State.attemptFrames_length (s : State) : s.attemptFrames.length = frameCount s.body := by
  unfold State.attemptFrames
  cases s.body <;> rfl

theorem attempt_leads {s : State} {e : Exchange} {ta : List TxAnswer} {ra : List RxAnswer}
    (hph : s.phase = firstPhase s.body) (hpage : s.body = .page → pageOk s.page = true) (hfits : e.fits s.body = true)
    (htx : s.txAns = e.txUsed s.body ++ ta) (hrx : s.rxAns = e.rxUsed ++ ra)
    (hw : busyUnits (e.verdict s.endLen s.body) ≤ s.ticks) :
    ∃ t, Leads 19 s t ∧ Attempted s e ta ra t := by
  cases e with
  | txErr j =>
    have hj : j < s.attemptFrames.length := by rw [State.attemptFrames_length]; simpa [Exchange.fits] using hfits
    have hf : s.attemptFrames[j]? = some s.attemptFrames[j] := List.getElem?_eq_getElem hj
    obtain ⟨t, ht, hs, hframe, hpht, hsub⟩ := frames_lead hph hpage hf nofun (a := .err) (rest := ta)
      (by rw [htx]; simp [Exchange.txUsed])
    obtain ⟨hfr, hrec, hrep, hrxa, hticks, htrace⟩ := hs.of_loaded
    have hdrop : (s.attemptFrames.drop j).take 1 = [s.attemptFrames[j]] := by
      rw [List.drop_eq_getElem_cons hj, List.take_succ_cons, List.take_zero]
    refine ⟨t, ht.mono (by cases s.body <;> decide), hfr, hs.page, hsub, hrec, hrep, by rw [hframe]; exact hf, hs.txAns,
      hrxa.trans hrx, hticks, ?_, hpht⟩
    rw [htrace, State.exchangeEvents, hdrop]
    rfl
  | reply a =>
    obtain ⟨j, hj⟩ : ∃ j, frameCount s.body = j + 1 := by cases s.body <;> exact ⟨_, rfl⟩
    have hlen : s.attemptFrames.length = j + 1 := s.attemptFrames_length.trans hj
    have hf : s.attemptFrames[j]? = some s.attemptFrames[j] := List.getElem?_eq_getElem (by omega)
    obtain ⟨t, ht, hs, hframe, hpht, hsub⟩ := frames_lead hph hpage hf (fun _ => hj.symm) (a := .ok) (rest := ta)
      (by rw [htx, Exchange.txUsed, hj, List.replicate_succ', List.append_assoc, List.singleton_append])
    obtain ⟨hfr, hrec, hrep, hrxa, hticks, htrace⟩ := hs.of_loaded
    have hbody : t.body = s.body := hfr.body
    have hend : t.endLen = s.endLen := hfr.endLen
    have hall : (s.attemptFrames.take j).map (fun f => Event.tx f .ok) ++ [.tx s.attemptFrames[j] .ok] =
        s.attemptFrames.map fun f => .tx f .ok := by
      rw [← List.map_singleton (f := fun f => Event.tx f .ok), ← List.map_append, List.take_append_getElem, ← hlen,
        List.take_length]
    obtain ⟨u, hu, hr⟩ := rx_leads (s := t) (a := a) (ra := ra) (v := (Exchange.reply a).verdict s.endLen s.body) hpht
      (hrxa.trans hrx) (by rw [hbody, hend]; rfl) (by rw [hticks]; exact hw)
    rw [hbody, hend] at hr
    refine ⟨u, (ht.trans hu).mono (by rw [hbody]; cases s.body <;> decide), hfr.trans hr.frame, hs.page.trans hr.page,
      hr.sub.trans hsub, hr.received, (State.noteAnswer_congr hrep hbody hend _).trans hr.reply, ?_, hr.txAns.trans hs.txAns,
      ?_, hr.ticks.trans (by rw [hticks]), ?_, hr.phase⟩
    · rw [Exchange.lastFrame, hj, Nat.add_sub_cancel, hf, hr.sent, hframe]
    · rw [hr.rxAns, hrxa, hrx]
      rfl
    · rw [hr.trace, htrace, hall, hbody, hend, State.exchangeEvents]
      simp only [List.append_assoc]
      rfl

/-! ### The step bodies (R213 to R215) -/

/-- A step body executed alone is one attempt, whose verdict it returns. -/
theorem drive_enterBody {s : State} {b : Body} {e : Exchange} {ta : List TxAnswer} {ra : List RxAnswer}
    (hpage : b = .page → pageOk s.page = true) (hfits : e.fits b = true) (htx : s.txAns = e.txUsed b ++ ta)
    (hrx : s.rxAns = e.rxUsed ++ ra) (hw : busyUnits (e.verdict s.endLen b) ≤ s.ticks) :
    ∃ t, drive bodyPhases (s.enterBody b) = .next ((t.returns (.attempt (e.verdict s.endLen b))).atPhase .idle) ∧
      Attempted (s.enterBody b) e ta ra t := by
  obtain ⟨t, ht, h⟩ := attempt_leads (s := s.enterBody b) rfl hpage hfits htx hrx hw
  have hscope : t.scope = .body := h.frame.scope
  have hjudge : advance t = .next ((t.returns (.attempt (e.verdict s.endLen b))).atPhase .idle) := by
    rw [advance_judge h.phase, State.judge, hscope]
    rfl
  exact ⟨t, (ht.trans (.one (by simp [State.atRest, h.phase]) hjudge)).drive_eq rfl (le_refl _), h⟩

theorem upTo_of_length_le {n : Nat} {a : RxAnswer} (h : ∀ b, a = .bytes b → b.length ≤ n) : a.upTo n = a := by
  cases a with
  | err => rfl
  | bytes b => rw [RxAnswer.upTo, List.take_of_length_le (h b rfl)]

theorem sub_busyUnits (n : Nat) (v : AttemptResult) : n - busyUnits v = if v = .retry .startBusy then n - 1 else n := by
  unfold busyUnits
  split <;> rfl

/-- Settles O33: one frame, one reply. -/
theorem startAttempt : Obligations.StartAttempt := by
  unfold Obligations.StartAttempt
  refine ⟨fun s ta a ra htx hrx hlen hbusy => ?_, fun s ta htx => ?_⟩
  · have hup : a.upTo 10 = a := upTo_of_length_le hlen
    have hv : (Exchange.reply a).verdict s.endLen .start = startVerdict a := congrArg startVerdict hup
    have hw : busyUnits ((Exchange.reply a).verdict s.endLen .start) ≤ s.ticks := by
      rw [hv, busyUnits]
      split
      next h => exact Nat.pos_of_ne_zero (hbusy h)
      next => exact Nat.zero_le _
    obtain ⟨t, hd, h⟩ := drive_enterBody (b := .start) (e := .reply a) nofun rfl htx hrx hw
    have htrace : t.trace = s.trace ++ ([.tx (startFrame s.plane s.slot) .ok, .rx 10 (a.upTo 10)] ++
      busyEvents (startVerdict (a.upTo 10))) := h.trace
    have hreceived : t.rxBytes = (a.upTo 10).delivered := h.received
    have hreply : SameReply ((s.enterBody .start).noteAnswer (a.upTo 10)) t := h.reply
    have hticks : t.ticks = s.ticks - busyUnits ((Exchange.reply a).verdict s.endLen .start) := h.ticks
    obtain ⟨⟨⟨hpos, hreport, hcause, -⟩, himage, hinputs, hbench⟩, hpage, hsub, -, -, hframe, htx', hrx', -⟩ := h
    rw [hup] at htrace hreceived hreply
    rw [hv] at hd hticks
    rw [sub_busyUnits] at hticks
    rw [List.append_assoc]
    refine ⟨_, hd, rfl, rfl, htrace, htx', hrx', hticks, ?_, (Option.some.inj hframe).symm, ?_, hsub, hcause,
      hinputs, hbench, hpos, hpage, hreport, himage⟩
    · cases a with
      | err => exact hreply
      | bytes b =>
        have hnote : SameReply (s.noteStartReply (startReplyOf b)) ((s.enterBody .start).noteStartReply (startReplyOf b)) := by
          cases startReplyOf b <;> exact ⟨rfl, rfl, rfl, rfl⟩
        exact hnote.trans hreply
    · cases a <;> exact hreceived
  · obtain ⟨t, hd, h⟩ := drive_enterBody (b := .start) (e := .txErr 0) nofun rfl htx rfl (Nat.zero_le _)
    obtain ⟨⟨⟨hpos, hreport, hcause, -⟩, himage, hinputs, hbench⟩, hpage, hsub, ⟨hbuf, hlen⟩, hreply, -, htx', hrx', hticks,
      htrace, -⟩ := h
    exact ⟨_, hd, rfl, rfl, htrace, htx', hrx', hticks, hsub, hcause, hinputs, hbench, hbuf, hlen, hpos, hpage, hreport, hreply,
      himage⟩

/-- Settles O35: one frame, one reply, no status. -/
theorem endAttempt : Obligations.EndAttempt := by
  unfold Obligations.EndAttempt
  refine ⟨fun s ta a ra htx hrx hlen => ?_, fun s ta htx => ?_⟩
  · have hup : a.upTo s.endLen.bytes = a := upTo_of_length_le hlen
    have hv : (Exchange.reply a).verdict s.endLen .finish = endVerdict s.endLen a := congrArg (endVerdict s.endLen) hup
    have hne : endVerdict s.endLen a ≠ .retry .startBusy := verdict_ne_startBusy (b := .finish) nofun _ a
    have hfree : busyUnits (endVerdict s.endLen a) = 0 := if_neg hne
    have hquiet : busyEvents (endVerdict s.endLen a) = [] := if_neg hne
    obtain ⟨t, hd, h⟩ := drive_enterBody (b := .finish) (e := .reply a) nofun rfl htx hrx (by rw [hv, hfree]; exact Nat.zero_le _)
    have htrace : t.trace = s.trace ++ ([.tx (endFrameBytes s.slot) .ok, .rx s.endLen.bytes (a.upTo s.endLen.bytes)] ++
      busyEvents (endVerdict s.endLen (a.upTo s.endLen.bytes))) := h.trace
    have hreceived : t.rxBytes = (a.upTo s.endLen.bytes).delivered := h.received
    have hreply : SameReply ((s.enterBody .finish).noteAnswer (a.upTo s.endLen.bytes)) t := h.reply
    have hticks : t.ticks = s.ticks - busyUnits ((Exchange.reply a).verdict s.endLen .finish) := h.ticks
    obtain ⟨⟨⟨hpos, hreport, hcause, -⟩, himage, hinputs, hbench⟩, hpage, hsub, -, -, hframe, htx', hrx', -⟩ := h
    rw [hup] at htrace hreceived hreply
    rw [hquiet, List.append_nil] at htrace
    rw [hv] at hd hticks
    rw [hfree] at hticks
    refine ⟨_, hd, rfl, rfl, htrace, htx', hrx', hticks, ?_, (Option.some.inj hframe).symm, ?_, hsub, hcause, hinputs, hbench,
      hpos, hpage, hreport, himage⟩
    · cases a with
      | err => exact hreply
      | bytes b =>
        have hnote : SameReply (s.noteEndReply (endReplyOf s.endLen b))
            ((s.enterBody .finish).noteEndReply (endReplyOf s.endLen b)) := by
          cases endReplyOf s.endLen b <;> exact ⟨rfl, rfl, rfl, rfl⟩
        exact hnote.trans hreply
    · cases a <;> exact hreceived
  · obtain ⟨t, hd, h⟩ := drive_enterBody (b := .finish) (e := .txErr 0) nofun rfl htx rfl (Nat.zero_le _)
    obtain ⟨⟨⟨hpos, hreport, hcause, -⟩, himage, hinputs, hbench⟩, hpage, hsub, ⟨hbuf, hlen⟩, hreply, -, htx', hrx', hticks,
      htrace, -⟩ := h
    exact ⟨_, hd, rfl, rfl, htrace, htx', hrx', hticks, hsub, hcause, hinputs, hbench, hbuf, hlen, hpos, hpage, hreport, hreply,
      himage⟩

/-- Settles O34: the page is loaded, its sub-frames are sent as far as the transport takes them, and all five ask for a reply. -/
theorem pageAttempt : Obligations.PageAttempt := by
  unfold Obligations.PageAttempt
  refine ⟨fun s ta a ra hlo hhi htx hrx hlen => ?_, fun s j ta hlo hhi hj htx => ?_⟩
  · have hup : a.upTo 6 = a := upTo_of_length_le hlen
    have hv : (Exchange.reply a).verdict s.endLen .page = pageVerdict a := congrArg pageVerdict hup
    have hne : pageVerdict a ≠ .retry .startBusy := verdict_ne_startBusy (b := .page) nofun s.endLen a
    have hfree : busyUnits (pageVerdict a) = 0 := if_neg hne
    have hquiet : busyEvents (pageVerdict a) = [] := if_neg hne
    obtain ⟨t, hd, h⟩ := drive_enterBody (b := .page) (e := .reply a) (fun _ => pageOk_eq_true hlo hhi) rfl htx hrx
      (by rw [hv, hfree]; exact Nat.zero_le _)
    have htrace : t.trace = s.trace ++ ((pageFrames s.img s.slot s.plane s.page).map (fun f => .tx f .ok) ++
      [.rx 6 (a.upTo 6)] ++ busyEvents (pageVerdict (a.upTo 6))) := h.trace
    have hreceived : t.rxBytes = (a.upTo 6).delivered := h.received
    have hreply : SameReply ((s.enterBody .page).noteAnswer (a.upTo 6)) t := h.reply
    have hticks : t.ticks = s.ticks - busyUnits ((Exchange.reply a).verdict s.endLen .page) := h.ticks
    have hpage : SamePage (s.loadPage s.plane s.page) t := h.page
    obtain ⟨⟨⟨hpos, hreport, hcause, -⟩, himage, hinputs, hbench⟩, -, hsub, -, -, hframe, htx', hrx', -⟩ := h
    obtain ⟨hbuf, hplen, hcrc, hreg, hinit⟩ := hpage
    have hreg' : t.crcReg = ~~~ t.pageCrc := by
      rw [hreg, hcrc, loadPage_frame]
    rw [hup] at htrace hreceived hreply
    rw [hquiet, List.append_nil] at htrace
    rw [hv] at hd hticks
    rw [hfree] at hticks
    refine ⟨_, hd, rfl, rfl, ?_, htx', hrx', hticks, hsub, ?_, hcrc, ?_, hreg', hinit, hframe.symm, ?_, ?_, hcause, hinputs,
      hbench, hpos, hreport, himage⟩
    · rw [List.append_assoc]; exact htrace
    · exact (congrArg Vector.toList hbuf).trans (loadPage_pageBuf_toList s s.plane s.page)
    · exact (congrArg BitVec.toNat hplen).trans (loadPage_pageLen_toNat s s.plane s.page)
    · cases a <;> exact hreceived
    · cases a with
      | err => exact hreply
      | bytes b =>
        have hnote : SameReply (s.noteDataReply (dataReplyOf b)) ((s.enterBody .page).noteDataReply (dataReplyOf b)) := by
          cases dataReplyOf b <;> exact ⟨rfl, rfl, rfl, rfl⟩
        exact hnote.trans hreply
  · obtain ⟨t, hd, h⟩ := drive_enterBody (b := .page) (e := .txErr j) (ta := ta) (ra := s.rxAns)
      (fun _ => pageOk_eq_true hlo hhi) (decide_eq_true hj) (by rw [htx]; simp [Exchange.txUsed]) rfl (Nat.zero_le _)
    obtain ⟨⟨⟨hpos, hreport, hcause, -⟩, himage, hinputs, hbench⟩, -, hsub, ⟨hbuf, hlen⟩, hreply, hframe, htx', hrx', hticks,
      htrace, -⟩ := h
    refine ⟨_, hd, rfl, rfl, ?_, htx', hrx', hticks, hsub, hcause, hinputs, hbench, hframe.symm, hbuf, hlen, hpos, hreport, hreply,
      himage⟩
    rw [List.append_assoc]
    exact htrace

end Sys2Proof.Machine
end

section
/-! PROOFS. RETRY (R212, R220, R260, R265): attempts that fail lead to the next one, and the first success or the third failure ends
the loop; the waits of a device that is always BUSY. -/

namespace Sys2Proof.Machine

/-! ### Attempts in a loop -/

/-- An attempt of a loop of RETRY is about to begin. -/
structure LoopStart (s : State) : Prop where
  phase : s.phase = firstPhase s.body
  scope : s.scope ≠ .body
  page : s.body = .page → pageOk s.page = true

/-- What a loop leaves alone, and, in the steps that have no page, `sub` and the page registers. -/
structure LoopFrame (s t : State) : Prop where
  fsm : t.fsm = s.fsm
  plane : t.plane = s.plane
  page : t.page = s.page
  slot : t.slot = s.slot
  body : t.body = s.body
  scope : t.scope = s.scope
  report : SameReport s t
  image : SameImage s t
  inputs : t.inputs = s.inputs
  bench : t.bench = s.bench
  apart : s.body ≠ .page → t.sub = s.sub ∧ SamePage s t

theorem LoopFrame.refl (s : State) : LoopFrame s s :=
  ⟨rfl, rfl, rfl, rfl, rfl, rfl, ⟨rfl, rfl, rfl, rfl⟩, .refl s, rfl, rfl, fun _ => ⟨rfl, rfl, rfl, rfl, rfl, rfl⟩⟩

theorem LoopFrame.trans {s t u : State} (h : LoopFrame s t) (h' : LoopFrame t u) : LoopFrame s u where
  fsm := h'.fsm.trans h.fsm
  plane := h'.plane.trans h.plane
  page := h'.page.trans h.page
  slot := h'.slot.trans h.slot
  body := h'.body.trans h.body
  scope := h'.scope.trans h.scope
  report := h.report.trans h'.report
  image := h.image.trans h'.image
  inputs := h'.inputs.trans h.inputs
  bench := h'.bench.trans h.bench
  apart := fun hb => by
    obtain ⟨hsub, hpage⟩ := h.apart hb
    obtain ⟨hsub', hpage'⟩ := h'.apart (by rwa [h.body])
    exact ⟨hsub'.trans hsub, hpage.trans hpage'⟩

theorem Attempted.attempt {s t : State} {e : Exchange} {ta : List TxAnswer} {ra : List RxAnswer} (h : Attempted s e ta ra t) :
    t.attempt = s.attempt := by
  obtain ⟨⟨⟨⟨-, -, -, hatt, -⟩, -⟩, -⟩, -⟩ := h
  exact hatt

theorem Attempted.loopFrame {s t : State} {e : Exchange} {ta : List TxAnswer} {ra : List RxAnswer} (h : Attempted s e ta ra t) :
    LoopFrame s t := by
  obtain ⟨⟨⟨⟨hfsm, hplane, hpage, -, hslot⟩, hreport, -, hbody, hscope⟩, himage, hinputs, hbench⟩, hregs, hsub, -⟩ := h
  refine ⟨hfsm, hplane, hpage, hslot, hbody, hscope, hreport, himage, hinputs, hbench, fun hb => ⟨?_, ?_⟩⟩
  · rw [hsub, State.subAfter, if_neg hb]
  · rwa [State.loaded_of_ne hb] at hregs

/-- What an attempt sends and asks for depends on the position, the image and the configuration alone. -/
theorem LoopFrame.exchangeEvents {s t : State} (h : LoopFrame s t) : t.exchangeEvents = s.exchangeEvents := by
  have hframes : t.attemptFrames = s.attemptFrames := by
    simp only [State.attemptFrames, h.body, h.plane, h.slot, h.page, h.image.1]
  funext e
  simp only [State.exchangeEvents, hframes, h.body, h.image.2]

/-- The elapsed units that attempts so answered use. -/
def busyTotal (n : Config.EndLen) (b : Body) (es : List Exchange) : Nat := (es.map fun e => busyUnits (e.verdict n b)).sum

/-- Attempts answered by `es`, all of which failed, from the beginning of one in `s` to the beginning of the next in `t`. -/
structure Retried (s : State) (es : List Exchange) (ta : List TxAnswer) (ra : List RxAnswer) (t : State) : Prop where
  start : LoopStart t
  frame : LoopFrame s t
  attempt : t.attempt.toNat = s.attempt.toNat + es.length
  txAns : t.txAns = ta
  rxAns : t.rxAns = ra
  ticks : t.ticks = s.ticks - busyTotal s.endLen s.body es
  trace : t.trace = s.trace ++ es.flatMap s.exchangeEvents

theorem failed_attempts_lead {es : List Exchange} {s : State} {ta : List TxAnswer} {ra : List RxAnswer} (hs : LoopStart s)
    (hes : ∀ e ∈ es, e.fits s.body = true ∧ ∃ c, e.verdict s.endLen s.body = .retry c)
    (hatt : s.attempt.toNat + es.length ≤ 3) (htx : s.txAns = es.flatMap (Exchange.txUsed s.body) ++ ta)
    (hrx : s.rxAns = es.flatMap Exchange.rxUsed ++ ra) (hw : busyTotal s.endLen s.body es ≤ s.ticks) :
    ∃ t, Leads (20 * es.length) s t ∧ Retried s es ta ra t := by
  induction es generalizing s with
  | nil => exact ⟨s, .refl s, hs, .refl s, rfl, htx, hrx, rfl, by simp⟩
  | cons e es ih =>
    obtain ⟨⟨hfits, c, hc⟩, hrest⟩ := List.forall_mem_cons.mp hes
    simp only [List.length_cons] at hatt
    simp only [busyTotal, List.map_cons, List.sum_cons] at hw
    rw [List.flatMap_cons, List.append_assoc] at htx hrx
    obtain ⟨t, ht, h⟩ := attempt_leads hs.phase hs.page hfits htx hrx (by omega)
    have hph := h.phase
    rw [hc] at hph
    have hfr := h.loopFrame
    have hscope : t.scope ≠ .body := by rw [hfr.scope]; exact hs.scope
    have hatt_t : t.attempt = s.attempt := h.attempt
    have hnot3 : t.attempt ≠ 3 := by
      intro h3
      rw [← hatt_t, h3] at hatt
      simp at hatt
    have hjudge : advance t = .next (State.beginAttempt { t with lastCause := c }) :=
      (advance_judge hph).trans (congrArg _ (State.judge_again hscope hnot3 c))
    obtain ⟨u, hu⟩ : ∃ u, u = State.beginAttempt { t with lastCause := c } := ⟨_, rfl⟩
    have htu : LoopFrame t u := by rw [hu]; exact ⟨rfl, rfl, rfl, rfl, rfl, rfl, ⟨rfl, rfl, rfl, rfl⟩, ⟨rfl, rfl⟩, rfl, rfl,
      fun _ => ⟨rfl, rfl, rfl, rfl, rfl, rfl⟩⟩
    have hsu : LoopFrame s u := hfr.trans htu
    have hattu : u.attempt.toNat = s.attempt.toNat + 1 := by
      rw [hu, State.beginAttempt_attempt]
      change (t.attempt + 1).toNat = _
      rw [hatt_t]
      bv_omega
    have hstart : LoopStart u :=
      ⟨by rw [hu]; rfl, by rw [hsu.scope]; exact hs.scope, by rw [hsu.body, hsu.page]; exact hs.page⟩
    have hticks : u.ticks = s.ticks - busyUnits (e.verdict s.endLen s.body) := by rw [hu]; exact h.ticks
    rw [← hu] at hjudge
    obtain ⟨v, hv, hr⟩ := ih (s := u) hstart (by rw [hsu.body, hsu.image.2]; exact hrest) (by omega)
      (by rw [hsu.body, hu]; exact h.txAns) (by rw [hu]; exact h.rxAns)
      (by rw [hsu.body, hsu.image.2, hticks]; simp only [busyTotal]; omega)
    refine ⟨v, ((ht.trans (.one (by simp [State.atRest, hph]) hjudge)).trans hv).mono (by simp only [List.length_cons]; omega),
      hr.start, hsu.trans hr.frame, by rw [hr.attempt, hattu, List.length_cons]; omega, hr.txAns, hr.rxAns, ?_, ?_⟩
    · rw [hr.ticks, hticks, hsu.body, hsu.image.2]
      simp only [busyTotal, List.map_cons, List.sum_cons]
      omega
    · rw [hr.trace, hsu.exchangeEvents, List.flatMap_cons, ← List.append_assoc, ← h.trace, hu]
      rfl

/-- What RETRY makes of its last attempt (R212). -/
def AttemptResult.step : AttemptResult → StepResult
  | .success => .ok
  | .retry c => .failed c

/-- The loop ends with a success or with the third attempt. -/
theorem last_attempt_leads {e : Exchange} {s : State} {ta : List TxAnswer} {ra : List RxAnswer} (hs : LoopStart s)
    (hfits : e.fits s.body = true) (htx : s.txAns = e.txUsed s.body ++ ta) (hrx : s.rxAns = e.rxUsed ++ ra)
    (hw : busyUnits (e.verdict s.endLen s.body) ≤ s.ticks)
    (hlast : e.verdict s.endLen s.body = .success ∨ s.attempt = 3) :
    ∃ t, Attempted s e ta ra t ∧ Leads 20 s (State.atPhase { t with lastCause := (e.verdict s.endLen s.body).lastCause }
      (.ret (e.verdict s.endLen s.body).step)) := by
  obtain ⟨t, ht, h⟩ := attempt_leads hs.phase hs.page hfits htx hrx hw
  have hscope : t.scope ≠ .body := by rw [h.frame.scope]; exact hs.scope
  have hatt : t.attempt = s.attempt := h.attempt
  refine ⟨t, h, ht.trans (.one (by simp [State.atRest, h.phase]) ((advance_judge h.phase).trans (congrArg _ ?_)))⟩
  cases hv : e.verdict s.endLen s.body with
  | success => exact State.judge_success hscope
  | retry c =>
    rw [hv] at hlast
    exact State.judge_last hscope (hatt.trans (hlast.resolve_left nofun)) c

/-- A BUSY start-reply is noted (R29, R94). -/
theorem noteAnswer_busy {s : State} {a : RxAnswer} (hb : s.body = .start) (h : startVerdict a = .retry .startBusy) :
    (s.noteAnswer a).lastStatus = 0x02 := by
  cases a with
  | err => cases h
  | bytes r =>
    rw [startVerdict_bytes] at h
    rw [State.noteAnswer_start hb]
    cases hr : startReplyOf r with
    | err e => rw [hr] at h; exact absurd h e.cause_ne_startBusy
    | ok f =>
      rw [hr] at h
      have hbusy : startClassOf f.status8 = .busy := startClass_attempt_eq_startBusy.mp h
      by_contra hne
      unfold startClassOf at hbusy
      split_ifs at hbusy with h1 h2
      exact hne h2

/-! ### RETRY executed alone -/

/-- RETRY(b) executed in `s`: the attempts answered by `es` failed, the one answered by `e` was the last. -/
structure RetryDone (s : State) (b : Body) (es : List Exchange) (e : Exchange) (ta : List TxAnswer) (ra : List RxAnswer)
    (t : State) : Prop where
  phase : t.phase = .idle
  frame : LoopFrame (s.enterRetry b .retry) t
  sub : b = .page → t.sub = 0
  result : t.result = .step (e.verdict s.endLen b).step
  attempt : t.attempt.toNat = es.length + 1
  lastCause : t.lastCause = (e.verdict s.endLen b).lastCause
  txAns : t.txAns = ta
  rxAns : t.rxAns = ra
  ticks : t.ticks = s.ticks - busyTotal s.endLen b (es ++ [e])
  trace : t.trace = s.trace ++ (es ++ [e]).flatMap (s.enterRetry b .retry).exchangeEvents
  reply : ∃ u : State, u.body = b ∧ u.endLen = s.endLen ∧ SameReply (u.noteExchange e) t

theorem exec_retry {s : State} {b : Body} {es : List Exchange} {e : Exchange} {ta : List TxAnswer} {ra : List RxAnswer}
    (hpage : b = .page → pageOk s.page = true)
    (hes : ∀ e ∈ es, e.fits b = true ∧ ∃ c, e.verdict s.endLen b = .retry c) (hfits : e.fits b = true)
    (hlen : es.length ≤ 2) (hlast : e.verdict s.endLen b = .success ∨ es.length = 2)
    (htx : s.txAns = es.flatMap (Exchange.txUsed b) ++ (e.txUsed b ++ ta))
    (hrx : s.rxAns = es.flatMap Exchange.rxUsed ++ (e.rxUsed ++ ra)) (hw : busyTotal s.endLen b (es ++ [e]) ≤ s.ticks) :
    ∃ t, exec (.retry b) s = .next t ∧ RetryDone s b es e ta ra t := by
  have hw' : busyTotal s.endLen b es + busyUnits (e.verdict s.endLen b) ≤ s.ticks := by
    simpa [busyTotal] using hw
  have hatt1 : (s.enterRetry b .retry).attempt.toNat = 1 := rfl
  obtain ⟨u, hu, hr⟩ := failed_attempts_lead (s := s.enterRetry b .retry) ⟨rfl, nofun, hpage⟩ hes (by omega) htx hrx
    (by change busyTotal s.endLen b es ≤ s.ticks; omega)
  have hbody : u.body = b := hr.frame.body
  have hend : u.endLen = s.endLen := hr.frame.image.2
  have hticks : u.ticks = s.ticks - busyTotal s.endLen b es := hr.ticks
  have hlast' : e.verdict u.endLen u.body = .success ∨ u.attempt = 3 := by
    rw [hbody, hend]
    refine hlast.imp id fun h2 => BitVec.eq_of_toNat_eq ?_
    rw [hr.attempt, h2]
    rfl
  obtain ⟨t, h, ht⟩ := last_attempt_leads (ta := ta) (ra := ra) hr.start (by rw [hbody]; exact hfits)
    (by rw [hbody]; exact hr.txAns) hr.rxAns (by rw [hbody, hend, hticks]; omega) hlast'
  rw [hbody, hend] at ht
  have hut : LoopFrame u t := h.loopFrame
  have hscope : t.scope = .retry := hut.scope.trans hr.frame.scope
  have hfinish (c : Cause) (r : StepResult) : State.finishStep (State.atPhase { t with lastCause := c } (.ret r)) r =
      State.atPhase (State.returns { t with lastCause := c } (.step r)) .idle := by
    simp only [State.finishStep, State.atPhase_scope, hscope]
    rfl
  have hret := Leads.one rfl (advance_ret (s := State.atPhase { t with lastCause := (e.verdict s.endLen b).lastCause }
    (.ret (e.verdict s.endLen b).step)) rfl)
  rw [hfinish] at hret
  refine ⟨_, ((hu.trans ht).trans hret).drive_eq rfl (by simp only [retryPhases, bodyPhases]; omega), rfl, ?_, ?_, rfl, ?_, rfl,
    h.txAns, h.rxAns, ?_, ?_, u, hbody, hend, h.reply⟩
  · exact (hr.frame.trans hut).trans ⟨rfl, rfl, rfl, rfl, rfl, rfl, ⟨rfl, rfl, rfl, rfl⟩, ⟨rfl, rfl⟩, rfl, rfl,
      fun _ => ⟨rfl, rfl, rfl, rfl, rfl, rfl⟩⟩
  · exact fun hb => h.sub.trans (State.subAfter_page (hbody.trans hb))
  · change t.attempt.toNat = _
    rw [h.attempt, hr.attempt, hatt1, Nat.add_comm]
  · change t.ticks = _
    rw [h.ticks, hbody, hend, hticks]
    simp only [busyTotal, List.map_append, List.sum_append, List.map_singleton, List.sum_singleton]
    omega
  · change t.trace = _
    rw [h.trace, hr.trace, hr.frame.exchangeEvents, List.flatMap_append, List.flatMap_singleton, ← List.append_assoc]
    rfl

theorem busyUnits_le_one (v : AttemptResult) : busyUnits v ≤ 1 := by
  unfold busyUnits
  split <;> decide

/-- An attempt waits for at most one elapsed unit (R220). -/
theorem busyTotal_le_length (n : Config.EndLen) (b : Body) (es : List Exchange) : busyTotal n b es ≤ es.length := by
  induction es with
  | nil => exact le_refl 0
  | cons e es ih =>
    have hone := busyUnits_le_one (e.verdict n b)
    simp only [busyTotal, List.map_cons, List.sum_cons, List.length_cons] at ih ⊢
    omega

theorem RetryDone.attempt_eq {s t : State} {b : Body} {es : List Exchange} {e : Exchange} {ta : List TxAnswer}
    {ra : List RxAnswer} (h : RetryDone s b es e ta ra t) {k : BitVec 2} (hk : k.toNat = es.length + 1) : t.attempt = k :=
  BitVec.eq_of_toNat_eq (h.attempt.trans hk.symm)

/-- What RETRY leaves alone, with what else is known of the state it ends in. -/
theorem RetryDone.leaves {s t : State} {b : Body} {es : List Exchange} {e : Exchange} {ta : List TxAnswer}
    {ra : List RxAnswer} (h : RetryDone s b es e ta ra t) (hexec : exec (.retry b) s = .next t) {P : State → Prop} (hP : P t) :
    ∃ t, exec (.retry b) s = .next t ∧ t.phase = .idle ∧ t.fsm = s.fsm ∧ t.plane = s.plane ∧ t.page = s.page ∧
      t.slot = s.slot ∧ t.inputs = s.inputs ∧ t.bench = s.bench ∧ SameReport s t ∧ SameImage s t ∧
      (b = .page → t.sub = 0) ∧ (b ≠ .page → t.sub = s.sub ∧ SamePage s t) ∧ P t := by
  obtain ⟨hfsm, hplane, hpage, hslot, -, -, hreport, himage, hinputs, hbench, hapart⟩ := h.frame
  exact ⟨t, hexec, h.phase, hfsm, hplane, hpage, hslot, hinputs, hbench, hreport, himage, h.sub, hapart, hP⟩

/-- Settles O36: by the first verdict that is a success, or none. -/
theorem retryFollowsTheVerdicts : Obligations.RetryFollowsTheVerdicts := by
  unfold Obligations.RetryFollowsTheVerdicts
  intro s b e1 e2 e3 ta ra hf1 hf2 hf3 hticks htx hrx hpage
  have hok (hb : b = .page) : pageOk s.page = true := pageOk_eq_true (hpage hb).1 (hpage hb).2
  have hw (es : List Exchange) (hes : es.length ≤ 3) : busyTotal s.endLen b es ≤ s.ticks := by
    have := busyTotal_le_length s.endLen b es
    omega
  cases hv1 : e1.verdict s.endLen b with
  | success =>
    obtain ⟨t, ht, h⟩ := exec_retry (es := []) hok nofun hf1 (by simp) (.inl hv1) htx hrx (hw _ (by simp))
    have hresult := h.result
    have hcause := h.lastCause
    rw [hv1] at hresult hcause
    exact h.leaves ht ⟨hresult, h.attempt_eq rfl, hcause, h.txAns, h.rxAns⟩
  | retry c1 =>
    cases hv2 : e2.verdict s.endLen b with
    | success =>
      obtain ⟨t, ht, h⟩ := exec_retry (es := [e1]) hok (by simp [hf1, hv1]) hf2 (by simp) (.inl hv2) (by simpa using htx)
        (by simpa using hrx) (hw _ (by simp))
      have hresult := h.result
      have hcause := h.lastCause
      rw [hv2] at hresult hcause
      exact h.leaves ht ⟨hresult, h.attempt_eq rfl, hcause, h.txAns, h.rxAns⟩
    | retry c2 =>
      obtain ⟨t, ht, h⟩ := exec_retry (es := [e1, e2]) hok (by simp [hf1, hf2, hv1, hv2]) hf3 (by simp) (.inr rfl)
        (by simpa using htx) (by simpa using hrx) (hw _ (by simp))
      have hresult := h.result
      have hcause := h.lastCause
      refine h.leaves ht ?_
      cases hv3 : e3.verdict s.endLen b <;> rw [hv3] at hresult hcause <;>
        exact ⟨hresult, h.attempt_eq rfl, hcause, h.txAns, h.rxAns⟩

/-- A BUSY answer of a start step: one frame, one receive, one wait (R220). -/
theorem exchangeEvents_busy {s : State} (hb : s.body = .start) {a : RxAnswer}
    (ha : startVerdict (a.upTo 10) = .retry .startBusy) :
    s.exchangeEvents (.reply a) = [.tx (startFrame s.plane s.slot) .ok, .rx 10 (a.upTo 10), .waitUnit] := by
  have hframes : s.attemptFrames = [startFrame s.plane s.slot] := by simp only [State.attemptFrames, hb]
  have hwait : busyEvents (startVerdict (a.upTo 10)) = [.waitUnit] := by rw [ha]; rfl
  simp only [State.exchangeEvents, hframes, hb]
  exact congrArg (fun w => [Event.tx (startFrame s.plane s.slot) .ok, .rx 10 (a.upTo 10)] ++ w) hwait

/-- Settles O37: three attempts, none a success, each with its wait. -/
theorem busyWaitsThreeTimes : Obligations.BusyWaitsThreeTimes := by
  unfold Obligations.BusyWaitsThreeTimes
  intro s a1 a2 a3 ra ta htx hrx hticks hbusy
  have hv (a : RxAnswer) (ha : a ∈ [a1, a2, a3]) : (Exchange.reply a).verdict s.endLen .start = .retry .startBusy := hbusy a ha
  have h1 := hv a1 (by simp)
  have h2 := hv a2 (by simp)
  have h3 := hv a3 (by simp)
  have htotal : busyTotal s.endLen .start [.reply a1, .reply a2, .reply a3] = 3 := by
    simp [busyTotal, h1, h2, h3, busyUnits]
  obtain ⟨t, ht, h⟩ := exec_retry (s := s) (b := .start) (es := [.reply a1, .reply a2]) (e := .reply a3) (ta := ta) (ra := ra)
    nofun (by simp [Exchange.fits, h1, h2]) rfl (by simp) (.inr rfl) htx hrx (htotal.trans_le hticks)
  have hresult := h.result
  rw [h3] at hresult
  obtain ⟨u, hu, -, -, hstatus, -⟩ := h.reply
  have hnoted : (u.noteExchange (.reply a3)).lastStatus = 0x02 := by
    have hlen : replyBytes u.endLen u.body = 10 := by rw [hu]; rfl
    rw [State.noteExchange, hlen]
    exact noteAnswer_busy hu (hbusy a3 (by simp))
  refine ⟨t, ht, hresult, h.attempt_eq rfl, hstatus.trans hnoted, h.ticks.trans (congrArg _ htotal), h.txAns, ?_⟩
  have hev (a : RxAnswer) (ha : a ∈ [a1, a2, a3]) := exchangeEvents_busy (s := s.enterRetry .start .retry) rfl (hbusy a ha)
  rw [h.trace]
  simp only [List.cons_append, List.nil_append, List.flatMap_cons, List.flatMap_nil, hev a1 (by simp), hev a2 (by simp),
    hev a3 (by simp)]
  rfl

end Sys2Proof.Machine
end

section
/-! PROOFS. A session in which every attempt succeeds at once (R216, R63, R224): each step sends its frames and leads to the next,
plane by plane, to Done. -/

namespace Sys2Proof.Machine

/-! ### What a trace sends (R224) -/

/-- Both tallies. -/
def Tally.plus (a b : Tally) : Tally :=
  ⟨a.tx + b.tx, a.rx + b.rx, a.wait + b.wait, a.bytesSent + b.bytesSent, a.bytesAsked + b.bytesAsked⟩

/-- The frames sent, and the tally. -/
structure Sent where
  frames : List (List Byte)
  tally : Tally

def Sent.plus (a b : Sent) : Sent := ⟨a.frames ++ b.frames, a.tally.plus b.tally⟩

/-- What a trace sends. -/
def sentBy (evs : List Event) : Sent := ⟨framesSent evs, tally evs⟩

theorem framesSent_append (a b : List Event) : framesSent (a ++ b) = framesSent a ++ framesSent b := by
  induction a with
  | nil => rfl
  | cons e a ih => cases e <;> simp [framesSent, ih]

theorem tally_append (a b : List Event) : tally (a ++ b) = (tally a).plus (tally b) := by
  induction a with
  | nil => simp [tally, Tally.plus]
  | cons e a ih =>
    rw [List.cons_append]
    cases e <;> simp only [tally, ih, Tally.plus, Nat.add_right_comm]

theorem sentBy_append (a b : List Event) : sentBy (a ++ b) = (sentBy a).plus (sentBy b) := by
  simp only [sentBy, framesSent_append, tally_append, Sent.plus]

/-! ### The steps of a session -/

/-- What a step that succeeds at once sends (R213 to R215, R224). -/
def State.stepSent (s : State) (q : Plane) (p : Page) : Body → Sent
  | .start => ⟨[startFrame q s.slot], 1, 1, 0, 10, 10⟩
  | .page => ⟨pageFrames s.img s.slot q p, 5, 1, 0, 320, 6⟩
  | .finish => ⟨[endFrameBytes s.slot], 1, 1, 0, 10, s.endLen.bytes⟩

/-- An attempt whose frames are all sent, and which asks for one reply. -/
theorem sentBy_frames (fs : List (List Byte)) (n : Nat) (a : RxAnswer) :
    sentBy (fs.map (fun f => .tx f .ok) ++ [.rx n a]) = ⟨fs, fs.length, 1, 0, (fs.map List.length).sum, n⟩ := by
  have hsends : sentBy (fs.map fun f => .tx f .ok) = ⟨fs, fs.length, 0, 0, (fs.map List.length).sum, 0⟩ := by
    induction fs with
    | nil => rfl
    | cons f fs ih =>
      obtain ⟨hframes, htally⟩ := Sent.mk.inj ih
      simp [sentBy, framesSent, tally, hframes, htally, Nat.add_comm]
  rw [sentBy_append, hsends]
  simp [sentBy, framesSent, tally, Sent.plus, Tally.plus]

theorem sentBy_exchangeEvents {s : State} {a : RxAnswer} (hv : (Exchange.reply a).verdict s.endLen s.body = .success) :
    sentBy (s.exchangeEvents (.reply a)) = s.stepSent s.plane s.page s.body := by
  have hquiet : busyEvents (verdict s.endLen s.body (a.upTo (replyBytes s.endLen s.body))) = [] := by
    rw [show verdict s.endLen s.body (a.upTo (replyBytes s.endLen s.body)) = .success from hv]
    rfl
  rw [State.exchangeEvents, hquiet, List.append_nil, sentBy_frames, State.attemptFrames]
  cases s.body with
  | start => rfl
  | page => simp [State.stepSent, pageFrames, replyBytes]
  | finish => rfl

/-- A stretch of a session without retry, in which `w` is sent. -/
structure Sweep (s : State) (w : Sent) (t : State) : Prop where
  slot : t.slot = s.slot
  report : SameReport s t
  image : SameImage s t
  ticks : t.ticks = s.ticks
  events : ∃ evs, t.trace = s.trace ++ evs ∧ sentBy evs = w

theorem Sweep.trans {s t u : State} {w w' : Sent} (h : Sweep s w t) (h' : Sweep t w' u) : Sweep s (w.plus w') u := by
  obtain ⟨evs, htrace, hsent⟩ := h.events
  obtain ⟨evs', htrace', hsent'⟩ := h'.events
  exact ⟨h'.slot.trans h.slot, h.report.trans h'.report, h.image.trans h'.image, h'.ticks.trans h.ticks, evs ++ evs',
    by rw [htrace', htrace, List.append_assoc], by rw [sentBy_append, hsent, hsent']⟩

/-- RUN's continuation sends nothing. -/
theorem Sweep.runNext {s t : State} {w : Sent} (h : Sweep s w t) (hb : t.body ≠ .finish) : Sweep s w t.runNext := by
  obtain ⟨hslot, hreport, himage, hticks, hevents⟩ := h
  unfold State.runNext
  split
  · exact ⟨hslot, hreport, himage, hticks, hevents⟩
  · split_ifs <;> exact ⟨hslot, hreport, himage, hticks, hevents⟩
  · contradiction

theorem Sweep.stepSent {s t : State} {w : Sent} (h : Sweep s w t) : t.stepSent = s.stepSent := by
  funext q p b
  obtain ⟨himg, hend⟩ := h.image
  cases b <;> simp only [State.stepSent, h.slot, himg, hend]

/-- RUN begins a step, with these answers at hand. -/
structure StepBegins (b : Body) (q : Plane) (p : Page) (ta : List TxAnswer) (ra : List RxAnswer) (s : State) : Prop where
  phase : s.phase = firstPhase b
  scope : s.scope = .run
  body : s.body = b
  plane : s.plane = q
  page : s.page = p
  pageOk : b = .page → pageOk p = true
  attempt : s.attempt = 1
  txAns : s.txAns = ta
  rxAns : s.rxAns = ra

/-- The step succeeded at once, and these answers are left. -/
structure StepEnds (b : Body) (q : Plane) (p : Page) (ta : List TxAnswer) (ra : List RxAnswer) (s : State) : Prop where
  body : s.body = b
  plane : s.plane = q
  page : s.page = p
  attempt : s.attempt = 1
  lastCause : s.lastCause = .none
  txAns : s.txAns = ta
  rxAns : s.rxAns = ra

theorem clean_step_leads {s : State} {b : Body} {q : Plane} {p : Page} {a : RxAnswer} {ta : List TxAnswer}
    {ra : List RxAnswer} (hs : StepBegins b q p (List.replicate (frameCount b) .ok ++ ta) (a :: ra) s)
    (hv : (Exchange.reply a).verdict s.endLen b = .success) :
    ∃ t, Leads 21 s t.runNext ∧ StepEnds b q p ta ra t ∧ Sweep s (s.stepSent q p b) t := by
  obtain ⟨hph, hscope, rfl, rfl, rfl, hpage, hatt, htx, hrx⟩ := hs
  obtain ⟨t, h, ht⟩ := last_attempt_leads (e := .reply a) ⟨hph, by simp [hscope], hpage⟩ rfl htx hrx
    (by rw [hv]; exact Nat.zero_le _) (.inl hv)
  rw [hv] at ht
  obtain ⟨u, hu⟩ : ∃ u, u = State.atPhase { t with lastCause := .none } (.ret .ok) := ⟨_, rfl⟩
  have hlead : Leads 20 s u := by rw [hu]; exact ht
  have hframe := h.loopFrame
  have hrun : u.scope = .run := by rw [hu]; exact hframe.scope.trans hscope
  have hnext : u.finishStep .ok = u.runNext := by simp only [State.finishStep, hrun]
  have hphase : u.phase = .ret .ok := by rw [hu]; rfl
  have hret := Leads.one (by simp [State.atRest, hphase]) (advance_ret hphase)
  rw [hnext] at hret
  refine ⟨u, hlead.trans hret, ?_⟩
  have hticks := h.ticks
  rw [hv] at hticks
  rw [hu]
  exact ⟨⟨hframe.body, hframe.plane, hframe.page, h.attempt.trans hatt, rfl, h.txAns, h.rxAns⟩,
    hframe.slot, hframe.report, hframe.image, hticks, _, h.trace, sentBy_exchangeEvents hv⟩

/-- After a start step come the pages (R216). -/
theorem StepEnds.start_next {t : State} {q : Plane} {p : Page} {ta : List TxAnswer} {ra : List RxAnswer}
    (h : StepEnds .start q p ta ra t) : StepBegins .page q 1 ta ra t.runNext := by
  have hnext : t.runNext = t.enterPage 1 := by simp only [State.runNext, h.body]
  rw [hnext]
  exact ⟨rfl, rfl, rfl, h.plane, rfl, fun _ => rfl, rfl, h.txAns, h.rxAns⟩

/-- After a page comes the next one. -/
theorem StepEnds.page_next {t : State} {q : Plane} {p : Page} {ta : List TxAnswer} {ra : List RxAnswer}
    (h : StepEnds .page q p ta ra t) (hp : p.toNat < 61) : StepBegins .page q (p + 1) ta ra t.runNext := by
  have hlt : t.page.toNat < Config.pagesPerColor := by rw [h.page]; exact hp
  have hnext : t.runNext = t.enterPage (p + 1) := by simp only [State.runNext, h.body, if_pos hlt, ← h.page]
  have hsucc : (p + 1).toNat = p.toNat + 1 := by bv_omega
  have hok := pageOk_eq_true (p := p + 1) (by omega) (by omega)
  rw [hnext]
  exact ⟨rfl, rfl, rfl, h.plane, rfl, fun _ => hok, rfl, h.txAns, h.rxAns⟩

/-- After plane 0 comes plane 1. -/
theorem StepEnds.plane_next {t : State} {ta : List TxAnswer} {ra : List RxAnswer} (h : StepEnds .page 0 61 ta ra t) :
    StepBegins .start 1 0 ta ra t.runNext := by
  have hlast : ¬ t.page.toNat < Config.pagesPerColor := by rw [h.page]; decide
  have hnext : t.runNext = t.enterPlane 1 := by simp only [State.runNext, h.body, if_neg hlast, if_pos h.plane]
  rw [hnext]
  exact ⟨rfl, rfl, rfl, rfl, rfl, nofun, rfl, h.txAns, h.rxAns⟩

/-- After plane 1 comes the end step. -/
theorem StepEnds.planes_next {t : State} {ta : List TxAnswer} {ra : List RxAnswer} (h : StepEnds .page 1 61 ta ra t) :
    StepBegins .finish 1 0 ta ra t.runNext := by
  have hlast : ¬ t.page.toNat < Config.pagesPerColor := by rw [h.page]; decide
  have hplane : t.plane ≠ 0 := by rw [h.plane]; decide
  have hnext : t.runNext = t.enterEnd := by simp only [State.runNext, h.body, if_neg hlast, if_neg hplane]
  rw [hnext]
  exact ⟨rfl, rfl, rfl, h.plane, rfl, nofun, rfl, h.txAns, h.rxAns⟩

/-! ### The planes -/

/-- What `n` pages from `p` on send. -/
def State.pagesSent (s : State) (q : Plane) (p n : Nat) : Sent :=
  ⟨(List.range' p n).flatMap fun i => pageFrames s.img s.slot q (BitVec.ofNat 6 i), 5 * n, n, 0, 320 * n, 6 * n⟩

theorem State.pagesSent_one (s : State) (q : Plane) (p : Page) : s.pagesSent q p.toNat 1 = s.stepSent q p .page := by
  simp [State.pagesSent, State.stepSent]

theorem State.pagesSent_succ (s : State) (q : Plane) (p : Page) (n : Nat) :
    (s.stepSent q p .page).plus (s.pagesSent q (p.toNat + 1) n) = s.pagesSent q p.toNat (n + 1) := by
  simp [State.pagesSent, State.stepSent, Sent.plus, Tally.plus, List.range'_succ]
  omega

theorem Sweep.pagesSent {s t : State} {w : Sent} (h : Sweep s w t) : t.pagesSent = s.pagesSent := by
  obtain ⟨himg, -⟩ := h.image
  funext q p n
  simp only [State.pagesSent, h.slot, himg]

theorem Sweep.endLen {s t : State} {w : Sent} (h : Sweep s w t) : t.endLen = s.endLen := by
  obtain ⟨-, hend⟩ := h.image
  exact hend

/-- The pages from `p` to the last, answered by `a` and `as`. -/
theorem clean_pages_lead {as : List RxAnswer} {s : State} {q : Plane} {p : Page} {a : RxAnswer} {ta : List TxAnswer}
    {ra : List RxAnswer} (hs : StepBegins .page q p (List.replicate (5 * (as.length + 1)) .ok ++ ta) (a :: as ++ ra) s)
    (hp : p.toNat + as.length = 61) (hv : ∀ x ∈ a :: as, pageVerdict (x.upTo 6) = .success) :
    ∃ t, Leads (21 * (as.length + 1)) s t.runNext ∧ StepEnds .page q 61 ta ra t ∧
      Sweep s (s.pagesSent q p.toNat (as.length + 1)) t := by
  induction as generalizing s p a with
  | nil =>
    have hlast : p = 61 := BitVec.eq_of_toNat_eq hp
    obtain ⟨t, ht, hend, hsweep⟩ := clean_step_leads hs (hv a (by simp))
    rw [← State.pagesSent_one] at hsweep
    exact ⟨t, ht, hlast ▸ hend, hsweep⟩
  | cons a' as ih =>
    simp only [List.length_cons] at hs hp ⊢
    have hsplit : List.replicate (5 * (as.length + 1 + 1)) TxAnswer.ok ++ ta =
        List.replicate (frameCount .page) .ok ++ (List.replicate (5 * (as.length + 1)) .ok ++ ta) := by
      rw [← List.append_assoc, List.replicate_append_replicate]
      congr 2
      simp only [frameCount]
      omega
    rw [hsplit] at hs
    obtain ⟨u, hu, hend, hsweep⟩ := clean_step_leads hs (hv a (by simp))
    have hnext : (p + 1).toNat = p.toNat + 1 := by bv_omega
    have hsweep' := hsweep.runNext (by rw [hend.body]; nofun)
    obtain ⟨t, ht, hend', hpages⟩ := ih (hend.page_next (by omega)) (by omega) fun x hx => hv x (List.mem_cons_of_mem a hx)
    rw [hsweep'.pagesSent, hnext] at hpages
    refine ⟨t, (hu.trans ht).mono (by omega), hend', ?_⟩
    rw [← State.pagesSent_succ]
    exact hsweep'.trans hpages

/-- What a plane sends (R63, R216, R224). -/
def State.planeSent (s : State) (q : Plane) : Sent := ⟨planeFrames s.img s.slot q, 306, 62, 0, 19530, 376⟩

theorem State.planeSent_eq (s : State) (q : Plane) (p : Page) :
    (s.stepSent q p .start).plus (s.pagesSent q 1 61) = s.planeSent q := by
  have hpages : List.range' 1 61 = (List.range 61).map (· + 1) := by
    rw [List.range'_eq_map_range]
    exact List.map_congr_left fun i _ => Nat.add_comm 1 i
  simp only [State.stepSent, State.pagesSent, Sent.plus, hpages, List.flatMap_map]
  rfl

/-- A plane: its start step and its 61 pages. -/
theorem clean_plane_leads {s : State} {q : Plane} {a : RxAnswer} {as : List RxAnswer} {ta : List TxAnswer}
    {ra : List RxAnswer} (hs : StepBegins .start q 0 (List.replicate 306 .ok ++ ta) (a :: (as ++ ra)) s)
    (hlen : as.length = 61) (hv : startVerdict (a.upTo 10) = .success)
    (hvs : ∀ x ∈ as, pageVerdict (x.upTo 6) = .success) :
    ∃ t, Leads 1302 s t.runNext ∧ StepEnds .page q 61 ta ra t ∧ Sweep s (s.planeSent q) t := by
  cases as with
  | nil => cases hlen
  | cons a' as =>
    rw [List.length_cons] at hlen
    have hsplit : List.replicate 306 TxAnswer.ok ++ ta =
        List.replicate (frameCount .start) .ok ++ (List.replicate (5 * (as.length + 1)) .ok ++ ta) := by
      rw [← List.append_assoc, List.replicate_append_replicate, hlen]
      rfl
    rw [hsplit] at hs
    obtain ⟨u, hu, hend, hsweep⟩ := clean_step_leads hs hv
    have hsweep' := hsweep.runNext (by rw [hend.body]; nofun)
    obtain ⟨t, ht, hend', hpages⟩ := clean_pages_lead hend.start_next (by change 1 + as.length = 61; omega) hvs
    rw [hsweep'.pagesSent, hlen] at hpages
    refine ⟨t, (hu.trans ht).mono (by omega), hend', ?_⟩
    rw [← State.planeSent_eq s q 0]
    exact hsweep'.trans hpages

theorem Sweep.planeSent {s t : State} {w : Sent} (h : Sweep s w t) : t.planeSent = s.planeSent := by
  obtain ⟨himg, -⟩ := h.image
  funext q
  simp only [State.planeSent, h.slot, himg]

/-- What a session sends. -/
theorem State.sessionSent_eq (s : State) : ((s.planeSent 0).plus (s.planeSent 1)).plus (s.stepSent 1 0 .finish) =
    ⟨sessionFrames s.img s.slot, 613, 125, 0, 39070, 752 + s.endLen.bytes⟩ := by
  simp only [State.planeSent, State.stepSent, Sent.plus, Tally.plus, sessionFrames]

/-- Settles O41: two planes and the end step. -/
theorem cleanSessionSendsTheWholeImage : Obligations.CleanSessionSendsTheWholeImage := by
  unfold Obligations.CleanSessionSendsTheWholeImage
  intro s ta a0 a1 a2 as0 as1 ra htx hrx hlen0 hlen1 hv0 hv1 hv2 hvs
  have htx' : s.txAns = List.replicate 306 .ok ++ (List.replicate 306 .ok ++ (List.replicate 1 .ok ++ ta)) := by
    rw [htx, ← List.append_assoc, ← List.append_assoc, List.replicate_append_replicate, List.replicate_append_replicate]
  have hrx' : s.rxAns = a0 :: (as0 ++ (a1 :: (as1 ++ (a2 :: ra)))) := by simpa using hrx
  have hstart : StepBegins .start 0 0 s.txAns s.rxAns (s.enterPlane 0) := ⟨rfl, rfl, rfl, rfl, rfl, nofun, rfl, rfl, rfl⟩
  rw [htx', hrx'] at hstart
  obtain ⟨u, hu, hendu, hsu⟩ := clean_plane_leads hstart hlen0 hv0 fun x hx => hvs x (List.mem_append_left as1 hx)
  replace hsu := hsu.runNext (by rw [hendu.body]; nofun)
  obtain ⟨v, hv, hendv, hsv⟩ := clean_plane_leads hendu.plane_next hlen1 hv1 fun x hx => hvs x (List.mem_append_right as0 hx)
  rw [hsu.planeSent] at hsv
  replace hsv := hsu.trans (hsv.runNext (by rw [hendv.body]; nofun))
  obtain ⟨t, ht, hend, hst⟩ := clean_step_leads hendv.planes_next (by rw [hsv.endLen]; exact hv2)
  rw [hsv.stepSent] at hst
  replace hst := hsv.trans hst
  rw [State.sessionSent_eq] at hst
  have hdone : t.runNext = t.succeed := by simp only [State.runNext, hend.body]
  rw [hdone] at ht
  have hdrive := ((hu.trans hv).trans ht).drive_eq (N := runPhases) rfl (by decide)
  obtain ⟨evs, htrace, hsent⟩ := hst.events
  obtain ⟨hframes, htally⟩ := Sent.mk.inj hsent
  exact ⟨t.succeed, evs, hdrive, rfl, hend.plane, hend.page, hend.attempt, rfl, hst.slot, hend.lastCause, hst.report, hst.image,
    hend.txAns, hend.rxAns, hst.ticks, congrArg (· ++ [Event.terminal .done]) htrace, hframes, htally⟩

end Sys2Proof.Machine
end

section
/-! PROOFS. The reset pin presented together with a SEND (R265), and an operation that waits for its answer (R271, R297). -/

namespace Sys2Proof.Machine

/-! ### The pin comes first (R265, R290) -/

theorem State.pinUp_of_inputs {s : State} {i : Input} {rest : List Input} (h : s.inputs = i :: rest) : s.pinUp = i.rst := by
  simp [State.pinUp, h]

theorem State.nextInput_cons {s : State} {i : Input} {rest : List Input} (h : s.inputs = i :: rest) :
    s.nextInput = { s with inputs := rest } := by
  simp [State.nextInput, h]

/-- Settles O32: the pin is read before the command, and both are one input, which the step uses up. -/
theorem resetWinsOverSend : Obligations.ResetWinsOverSend := by
  unfold Obligations.ResetWinsOverSend
  intro s c rest hin
  have hstep : step s = exec .reset { s with inputs := rest } := by
    rw [step_reset (State.pinUp_of_inputs hin), State.nextInput_cons hin]
    rfl
  exact ⟨hstep, _, hstep, rfl, rfl, rfl⟩

/-! ### Waiting for an answer (R271, R297) -/

/-- A phase at rest changes nothing. -/
theorem advance_atRest {s : State} (h : s.atRest = true) : advance s = .next s := by
  cases hph : s.phase with
  | idle => exact advance_idle hph
  | tx => rw [advance_tx hph, State.transmit_nil (by simpa [State.atRest, hph] using h)]
  | rx => rw [advance_rx hph, State.request_nil (by simpa [State.atRest, hph] using h)]
  | backoff => rw [advance_backoff hph, State.await_zero (by simpa [State.atRest, hph] using h)]
  | segPage | segSub | enc | dec | cls | judge | ret => simp [State.atRest, hph] at h

/-- A step that finds nothing presented and an operation waiting changes nothing. -/
theorem step_waiting {s : State} (hin : s.inputs = []) (hph : s.phase ≠ .idle) (h : s.atRest = true) : step s = .next s := by
  rw [step_quiet hin (State.benchWord_of_running (State.running_of_phase hph)), advance_atRest h]

/-- Settles O51: without its answer each of the three operations is at rest. -/
theorem unansweredOperationsWait : Obligations.UnansweredOperationsWait := by
  unfold Obligations.UnansweredOperationsWait
  intro s hin
  refine ⟨fun hph hans => ?_, fun hph hans => ?_, fun hph hticks => ?_⟩
  · exact step_waiting hin (by simp [hph]) (by simp [State.atRest, hph, hans])
  · exact step_waiting hin (by simp [hph]) (by simp [State.atRest, hph, hans])
  · exact step_waiting hin (by simp [hph]) (by simp [State.atRest, hph, hticks])

end Sys2Proof.Machine
end
